-- ==== Sys2Proof/Word.lean ====
section
/-! DEFINITION. The words of the Buenuri: the byte, the 32-bit register and instruction word, the 64-bit Pool
word, and the sparse map in one canonical form that holds every memory and every register file of the model. -/
namespace Sys2Proof

/-- A byte; R2 fixes the byte order of everything built from bytes as little-endian. -/
abbrev Byte := BitVec 8
/-- A 32-bit control word or general register (00_scope.md, Numbers, units and names). -/
abbrev Word := BitVec 32
/-- A 64-bit Pool word (00_scope.md, Numbers, units and names). -/
abbrev PoolWord := BitVec 64

/-- A sparse table from numbers (addresses, register offsets, indices) to values. Its canonical form is `Map.wf`:
keys strictly rising, and no entry equal to what an unlisted key reads as. -/
abbrev Map (α : Type) := List (Nat × α)

/-- The value at a key: the listed one, else the default of that key. -/
def Map.get {α : Type} (d : Nat → α) : Map α → Nat → α
  | [], k => d k
  | (a, x) :: r, k => if a = k then x else Map.get d r k

/-- Put an entry at its place in rising order of key. -/
def Map.put {α : Type} : Map α → Nat → α → Map α
  | [], k, v => [(k, v)]
  | (a, x) :: r, k, v =>
    if k < a then (k, v) :: (a, x) :: r
    else if k = a then (k, v) :: r
    else (a, x) :: Map.put r k v

/-- Drop every entry of one key. -/
def Map.del {α : Type} (m : Map α) (k : Nat) : Map α := m.filter fun e => e.1 != k

/-- Write one key; writing the default removes the entry, so that equal tables are equal data. -/
def Map.set {α : Type} [DecidableEq α] (d : Nat → α) (m : Map α) (k : Nat) (v : α) : Map α :=
  if v = d k then m.del k else m.put k v

/-- Keys strictly rise, from a lower bound on. -/
def Map.sortedFrom {α : Type} : Nat → Map α → Bool
  | _, [] => true
  | lo, (a, _) :: r => decide (lo ≤ a) && Map.sortedFrom (a + 1) r

/-- The canonical form: keys strictly rising and no entry that repeats the default. -/
def Map.wf {α : Type} [DecidableEq α] (d : Nat → α) (m : Map α) : Bool :=
  Map.sortedFrom 0 m && m.all fun e => decide (e.2 ≠ d e.1)

end Sys2Proof
end

