-- ==== Sys2Proof/Syntax.lean ====
section
/-! DEFINITION. The commands of the device: one constructor of Instr for each row of the table of operations and events
(95_what_each_step_holds.md). An operand that the manual leaves to the world outside (bytes the host's memory answers
with, a level at a pin, the verdict of a self-test, a time in ms) is an operand of the command. -/
namespace Sys2Proof

/-- Who makes an access: the host through the PF (PF BAR0), the host through the instance's VF (its BAR0 or BAR2), a
management pair (0 the owner MGT, 1 the owner SAFE), or thread t of the instance through its IO segment (R13, R549). -/
inductive Path where
  | pf
  | vf
  | mgt (k : Nat)
  | prog (t : Nat)
  deriving DecidableEq, Repr

/-- The capabilities that R464 gives the functions. -/
inductive Capability where
  | powerManagement | pciExpress | flr | msix | aer | ari | sriov | serialNumber | l1Substates | ltr | dataLink
  | layer16 | layer32 | layer64 | laneMargining
  deriving DecidableEq, Repr

/-- The configuration items of a function that the manual names (R45, R463, R464, R466, R482, R489): it gives no offsets, and an
item stands for its field. `aerStatus` and `aerSeverity` are the uncorrectable error registers of AER. -/
inductive CfgItem where
  | vendorId | deviceId | classCode | capability (c : Capability) | msixVectors | barBytes (k : Nat)
  | totalVfs | initialVfs | firstVfOffset | vfStride | vfDeviceId | pageSizes | numVfs
  | memorySpace | busMaster | msixEnable | functionMask | aerStatus | aerSeverity | l12Enable
  deriving DecidableEq, Repr

/-- Where an access aims: an offset of PF BAR0 (R465), of instance n's window (R13), or of VF n + 1's BAR2 (R472), or a
configuration item of a function, 0 the PF and n + 1 the VF of instance n (R464). -/
inductive RegAddr where
  | pf (off : Nat)
  | win (n off : Nat)
  | bar2 (n off : Nat)
  | cfg (fn : Nat) (item : CfgItem)
  deriving DecidableEq, Repr

/-- Who writes the GPIO block (R549). -/
inductive Agent where
  | host | mgt | safe
  deriving DecidableEq, Repr

/-- The in-band device resets of R462. -/
inductive ResetCause where
  | hotReset | linkDisable | dlDown
  deriving DecidableEq, Repr

/-- What a boot meets outside the model (R558, R559): whether mask ROM, the ROOT lock and THERMTRIP_N let it pass step
1, whether the HBM trains, which units and Pool bank groups fail their self-test (bit masks), and how many ms it took. -/
structure BootRun where
  romOk     : Bool
  hbmOk     : Bool
  renderers : Nat
  comps     : Nat
  blits     : Nat
  cores     : Nat
  poolFail  : Nat
  ms        : Nat
  deriving DecidableEq, Repr

/-- Format L-R (R305): gd [24:20], ga [19:15], gb [14:10], reserved [9:6]. -/
structure FmtR where
  gd  : Nat
  ga  : Nat
  gb  : Nat
  rsv : Nat
  deriving DecidableEq, Repr

/-- Format L-S: gd, ga, gb, gc [9:5], reserved [4:0]. -/
structure FmtSel where
  gd  : Nat
  ga  : Nat
  gb  : Nat
  gc  : Nat
  rsv : Nat
  deriving DecidableEq, Repr

/-- Format L-Y: gd, ga, SR index or trap code [14:10], reserved [9:6]. -/
structure FmtY where
  gd  : Nat
  ga  : Nat
  sr  : Nat
  rsv : Nat
  deriving DecidableEq, Repr

/-- Format L-I: gd, ga, imm15 [14:0]. JALR uses it too: its gb, reserved and FN fields are these fifteen bits. -/
structure FmtI where
  gd  : Nat
  ga  : Nat
  imm : Nat
  deriving DecidableEq, Repr

/-- Format L-M: gd, ga, segment [14:12], imm12 [11:0]. -/
structure FmtM where
  gd  : Nat
  ga  : Nat
  seg : Nat
  imm : Nat
  deriving DecidableEq, Repr

/-- Format L-B: gc [24:20], disp20 [19:0]. -/
structure FmtB where
  gc   : Nat
  disp : Nat
  deriving DecidableEq, Repr

/-- Format L-U: gd [24:20], imm20 [19:0]. -/
structure FmtU where
  gd  : Nat
  imm : Nat
  deriving DecidableEq, Repr

/-- Format L-J: disp25 [24:0]. -/
structure FmtJ where
  disp : Nat
  deriving DecidableEq, Repr

/-- A pair (R306): short instruction A [30:16], bit 15, short instruction B [14:0]. -/
structure FmtP where
  a   : Nat
  b15 : Nat
  b   : Nat
  deriving DecidableEq, Repr

/-- The events of an HPD input (R544): plug, unplug, and the sink IRQ pulse. -/
inductive HpdKind where
  | plug | unplug | irq
  deriving DecidableEq, Repr

/-- What an audit slot finds (R445, R446): the digest equals that of the checkpoint; or it differs, with the outcome of the second audit: equal to the checkpoint, equal to the first audit, or neither. -/
inductive AuditOutcome where
  | pass | secondPasses | secondAgrees | undecided
  deriving DecidableEq, Repr

/-- The clocks that R523 monitors, with the VIDEO and AUDIO PLLs. -/
inductive ClockName where
  | root | fclk | cclk | gclk | mclk | hbm | pcie | reference | video | audio
  deriving DecidableEq, Repr

/-- The rails of R524. -/
inductive Rail where
  | core | sram | io
  deriving DecidableEq, Repr

/-- The crossings of R525: 100 C up or down, and 115 C. -/
inductive TempLevel where
  | warn | warnClears | fault
  deriving DecidableEq, Repr

/-- The memories whose words carry check codes (R406, R417): the Pool, the HBM, the Vault, the Extent Table SRAM, and the frame in
which a leaf of an extent is cached. -/
inductive MemId where
  | pool | hbm | vault | ext
  | leaf (e l : Nat)
  deriving DecidableEq, Repr

/-- A 64-bit word of one of these memories. -/
structure WordAt where
  mem  : MemId
  word : Nat
  deriving DecidableEq, Repr

/-- The commands (see the table of operations and events). -/
inductive Instr where
  /-- REGISTER_WRITE (R5): A host or program write to a register that has no row of its own applies by its access type (RW, W1C, W1S), with clamping under R8 and width checks under R3. -/
  | registerWrite (p : Path) (a : RegAddr) (width : Nat) (v : Nat)
  /-- READ_CLEAR (R5): A read of an RC field returns its value and then clears it. -/
  | readClear (p : Path) (a : RegAddr) (width : Nat)
  /-- COLD_POWER_UP (R555): The rails rise; the device resets, and it boots at PERST# deassertion. -/
  | coldPowerUp (straps : Nat)
  /-- POWER_DOWN (R575): PERST# asserts and the rails fall; an MRAM write in progress finishes within 20 us. -/
  | powerDown
  /-- PERST_ASSERT (R555): Filtered PERST# assertion resets the device and puts the balls in their in-reset states. -/
  | perstAssert
  /-- PERST_DEASSERT (R558): Filtered PERST# deassertion samples the straps and starts boot. -/
  | perstDeassert (straps : Nat)
  /-- HOT_RESET (R462): A Hot Reset, Link Disable or DL_Down acts as a device reset and boots at once. -/
  | hotReset (cause : ResetCause)
  /-- BOOT (R558): Mask ROM, firmware choice, self-test, memory zeroing, log settlement and the sealed-default load run as stages 1 to 7. -/
  | boot (r : BootRun)
  /-- LOAD_HOST (R56): Fetch an image from host memory, check it, take in instances and commit it through phases 1 to 7. -/
  | loadHost (image : Option (List Byte)) (ms avs : Nat) (cut : Option Bool)
  /-- LOAD_SLOT (R56): Load the image in an MRAM slot through phases 1 to 7. -/
  | loadSlot (ms avs : Nat) (cut : Option Bool)
  /-- WRITE_SLOT (R56): Fetch and verify an image from the host and store it in an MRAM slot without loading it. -/
  | writeSlot (image : Option (List Byte)) (ms : Nat)
  /-- SEAL_SLOT (R69): Re-verify a slot image and burn one sealed-default commit row. -/
  | sealSlot (ms : Nat) (cut : Option Bool)
  /-- ERASE_SLOT (R56): Erase the image area of an MRAM slot. -/
  | eraseSlot (ms : Nat)
  /-- FUSE_ARM (R72): A write to MGT_FUSE_ARM with KEY 0xF05E sets ALLOW; any other key clears it. -/
  | fuseArm (v : Word)
  /-- RESERVED_OPCODE (R328): A word with a reserved OP, FN or SOP traps RSVD_OP. -/
  | reservedOpcode (n t : Nat) (w : Word)
  /-- SEL (R314): gd takes ga if gc is not zero, else gb. -/
  | sel (n t : Nat) (f : FmtSel)
  /-- LUI (R314): gd takes imm20 shifted left by 12. -/
  | lui (n t : Nat) (f : FmtU)
  /-- ADDI (R314): gd takes ga plus sign-extended imm15. -/
  | addi (n t : Nat) (f : FmtI)
  /-- ANDI (R314): gd takes ga AND zero-extended imm15. -/
  | andi (n t : Nat) (f : FmtI)
  /-- ORI (R314): gd takes ga OR zero-extended imm15. -/
  | ori (n t : Nat) (f : FmtI)
  /-- XORI (R314): gd takes ga XOR zero-extended imm15. -/
  | xori (n t : Nat) (f : FmtI)
  /-- CMPEQI (R314): gd takes 1 if ga equals sign-extended imm15. -/
  | cmpeqi (n t : Nat) (f : FmtI)
  /-- CMPNEI (R314): gd takes 1 if ga differs from sign-extended imm15. -/
  | cmpnei (n t : Nat) (f : FmtI)
  /-- CMPLTI (R314): gd takes the signed compare of ga below the immediate. -/
  | cmplti (n t : Nat) (f : FmtI)
  /-- CMPLTUI (R314): gd takes the unsigned compare of ga below the immediate. -/
  | cmpltui (n t : Nat) (f : FmtI)
  /-- SHLI (R319): gd takes ga shifted left by imm15[7:0]. -/
  | shli (n t : Nat) (f : FmtI)
  /-- SHRI (R319): gd takes ga shifted right logically by the immediate count. -/
  | shri (n t : Nat) (f : FmtI)
  /-- SARI (R319): gd takes ga shifted right arithmetically by the immediate count. -/
  | sari (n t : Nat) (f : FmtI)
  /-- MULI (R314): gd takes the low 32 bits of ga times the sign-extended immediate. -/
  | muli (n t : Nat) (f : FmtI)
  /-- LB (R321): Load a sign-extended byte through segment s. -/
  | lb (n t : Nat) (f : FmtM)
  /-- LBU (R321): Load a zero-extended byte. -/
  | lbu (n t : Nat) (f : FmtM)
  /-- LH (R321): Load a sign-extended halfword. -/
  | lh (n t : Nat) (f : FmtM)
  /-- LHU (R321): Load a zero-extended halfword. -/
  | lhu (n t : Nat) (f : FmtM)
  /-- LW (R321): Load a 32-bit word. -/
  | lw (n t : Nat) (f : FmtM)
  /-- LD (R321): Load 8 bytes into gd and g(d + 1). -/
  | ld (n t : Nat) (f : FmtM)
  /-- AADD (R324): Atomically add gd to a word and return the old value. -/
  | aadd (n t : Nat) (f : FmtM)
  /-- ASWP (R324): Atomically swap gd with a word. -/
  | aswp (n t : Nat) (f : FmtM)
  /-- SB (R321): Store a byte. -/
  | sb (n t : Nat) (f : FmtM)
  /-- SH (R321): Store a halfword. -/
  | sh (n t : Nat) (f : FmtM)
  /-- SW (R321): Store a 32-bit word. -/
  | sw (n t : Nat) (f : FmtM)
  /-- SD (R321): Store gd and g(d + 1) as 8 bytes. -/
  | sd (n t : Nat) (f : FmtM)
  /-- BZ (R326): Branch if gc is zero. -/
  | bz (n t : Nat) (f : FmtB)
  /-- BNZ (R326): Branch if gc is not zero. -/
  | bnz (n t : Nat) (f : FmtB)
  /-- DBNZ (R326): Decrement gc and branch if the result is not zero. -/
  | dbnz (n t : Nat) (f : FmtB)
  /-- J (R326): Jump by disp25 words. -/
  | j (n t : Nat) (f : FmtJ)
  /-- CALL (R326): Write the return address to g31 and jump. -/
  | call (n t : Nat) (f : FmtJ)
  /-- JALR (R326): Write the link to gd and jump to ga. -/
  | jalr (n t : Nat) (f : FmtI)
  /-- ADD (R315): gd = ga + gb. -/
  | add (n t : Nat) (f : FmtR)
  /-- SUB (R315): gd = ga - gb. -/
  | sub (n t : Nat) (f : FmtR)
  /-- AND (R315): gd = ga AND gb. -/
  | and (n t : Nat) (f : FmtR)
  /-- OR (R315): gd = ga OR gb. -/
  | or (n t : Nat) (f : FmtR)
  /-- XOR (R315): gd = ga XOR gb. -/
  | xor (n t : Nat) (f : FmtR)
  /-- ANDN (R315): gd = ga AND NOT gb. -/
  | andn (n t : Nat) (f : FmtR)
  /-- SHL (R319): Shift ga left by gb[7:0]. -/
  | shl (n t : Nat) (f : FmtR)
  /-- SHR (R319): Shift ga right logically by gb[7:0]. -/
  | shr (n t : Nat) (f : FmtR)
  /-- SAR (R319): Shift ga right arithmetically by gb[7:0]. -/
  | sar (n t : Nat) (f : FmtR)
  /-- ROL (R319): Rotate ga left by gb[4:0]. -/
  | rol (n t : Nat) (f : FmtR)
  /-- ROR (R319): Rotate ga right by gb[4:0]. -/
  | ror (n t : Nat) (f : FmtR)
  /-- CMPEQ (R315): gd = (ga = gb). -/
  | cmpeq (n t : Nat) (f : FmtR)
  /-- CMPNE (R315): gd = (ga != gb). -/
  | cmpne (n t : Nat) (f : FmtR)
  /-- CMPLT (R315): Signed ga < gb. -/
  | cmplt (n t : Nat) (f : FmtR)
  /-- CMPLTU (R315): Unsigned ga < gb. -/
  | cmpltu (n t : Nat) (f : FmtR)
  /-- CMPLE (R315): Signed ga <= gb. -/
  | cmple (n t : Nat) (f : FmtR)
  /-- CMPLEU (R315): Unsigned ga <= gb. -/
  | cmpleu (n t : Nat) (f : FmtR)
  /-- MIN (R315): Signed minimum. -/
  | min (n t : Nat) (f : FmtR)
  /-- MAX (R315): Signed maximum. -/
  | max (n t : Nat) (f : FmtR)
  /-- MINU (R315): Unsigned minimum. -/
  | minu (n t : Nat) (f : FmtR)
  /-- MAXU (R315): Unsigned maximum. -/
  | maxu (n t : Nat) (f : FmtR)
  /-- MUL (R315): Low 32 bits of ga times gb. -/
  | mul (n t : Nat) (f : FmtR)
  /-- MULH (R319): High 32 bits of the signed product. -/
  | mulh (n t : Nat) (f : FmtR)
  /-- MULHU (R315): High 32 bits of the unsigned product. -/
  | mulhu (n t : Nat) (f : FmtR)
  /-- DIVS (R319): Signed divide, quotient to gd and remainder to g(d + 1). -/
  | divs (n t : Nat) (f : FmtR)
  /-- DIVU (R319): Unsigned divide, quotient and remainder. -/
  | divu (n t : Nat) (f : FmtR)
  /-- CARRY (R315): gd takes the carry out of ga + gb. -/
  | carry (n t : Nat) (f : FmtR)
  /-- BORROW (R315): gd takes the borrow of ga - gb. -/
  | borrow (n t : Nat) (f : FmtR)
  /-- ADDS (R319): Saturating signed sum. -/
  | adds (n t : Nat) (f : FmtR)
  /-- SUBS (R319): Saturating signed difference. -/
  | subs (n t : Nat) (f : FmtR)
  /-- NEG (R319): gd = 0 - ga. -/
  | neg (n t : Nat) (f : FmtR)
  /-- NOT (R315): gd = NOT ga. -/
  | not (n t : Nat) (f : FmtR)
  /-- ABS (R319): Absolute value of ga. -/
  | abs (n t : Nat) (f : FmtR)
  /-- CLZ (R319): Count the leading zero bits of ga. -/
  | clz (n t : Nat) (f : FmtR)
  /-- CTZ (R319): Count the trailing zero bits of ga. -/
  | ctz (n t : Nat) (f : FmtR)
  /-- POPC (R315): Count the one bits of ga. -/
  | popc (n t : Nat) (f : FmtR)
  /-- PAR (R315): Parity of ga. -/
  | par (n t : Nat) (f : FmtR)
  /-- BREV (R315): Reverse the bits of ga. -/
  | brev (n t : Nat) (f : FmtR)
  /-- BREV8 (R315): Reverse the bits within each byte of ga. -/
  | brev8 (n t : Nat) (f : FmtR)
  /-- BSWAP (R315): Reverse the bytes of ga. -/
  | bswap (n t : Nat) (f : FmtR)
  /-- SEXTB (R315): Sign-extend ga[7:0]. -/
  | sextb (n t : Nat) (f : FmtR)
  /-- SEXTH (R315): Sign-extend ga[15:0]. -/
  | sexth (n t : Nat) (f : FmtR)
  /-- ZEXTH (R315): Zero-extend ga[15:0]. -/
  | zexth (n t : Nat) (f : FmtR)
  /-- CRC32B (R320): One CRC-32 step over a byte. -/
  | crc32b (n t : Nat) (f : FmtR)
  /-- CRC32W (R320): Four CRC-32 steps over the bytes of gb. -/
  | crc32w (n t : Nat) (f : FmtR)
  /-- CRC16B (R320): One CRC-16 step over a byte. -/
  | crc16b (n t : Nat) (f : FmtR)
  /-- NOP (R316): Does nothing for 1 vc. -/
  | nop (n t : Nat) (f : FmtY)
  /-- WAIT (R360): The thread sleeps until a source that targets it is pending. -/
  | wait (n t : Nat) (f : FmtY)
  /-- IRET (R335): Return from a trap or from the innermost interrupt, or trap BAD_IRET. -/
  | iret (n t : Nat) (f : FmtY)
  /-- TRAP (R328): The software trap SWI enters vector 5. -/
  | trap (n t : Nat) (f : FmtY)
  /-- MFSR (R303): Copy a special register into gd. -/
  | mfsr (n t : Nat) (f : FmtY)
  /-- MTSR (R303): Copy ga into a special register. -/
  | mtsr (n t : Nat) (f : FmtY)
  /-- STOP (R338): The thread clears its own RUN bit and stops. -/
  | stop (n t : Nat) (f : FmtY)
  /-- PAIR (R307): A pair word executes short instruction A and then B in one issue turn. -/
  | pair (n t : Nat) (f : FmtP)
  /-- THREAD_RUN_WRITE (R337): A write of RUN in INST_THREAD_CTRL starts or stops a thread. -/
  | threadRunWrite (p : Path) (n : Nat) (v : Word)
  /-- INST_T_REGISTER_WRITE (R341): A write of a thread's INST_T_ registers lands or is ignored according to path and rung. -/
  | instTRegisterWrite (p : Path) (n t off : Nat) (v : Word)
  /-- INTERRUPT_ENTRY (R354): At a word boundary the highest eligible level is entered, pushing the resume point, in 4 vc. -/
  | interruptEntry (n t : Nat)
  /-- WAIT_WAKE (R360): A waiting thread wakes at the first stamp at which a source that targets it is pending. -/
  | waitWake (n t : Nat)
  /-- ICU_CLAIM (R356): A program load of ICU_CLAIM claims the highest qualifying source and puts it in service, or returns 0. -/
  | icuClaim (n t : Nat)
  /-- ICU_EOI (R357): A write of a source number to ICU_EOI ends that source's service. -/
  | icuEoi (p : Path) (n : Nat) (v : Word)
  /-- ICU_SRC_CFG_WRITE (R351): A program write of a source configuration lands at the next stamp and may wake a waiting target. -/
  | icuSrcCfgWrite (p : Path) (n i : Nat) (v : Word)
  /-- TIM_CTRL_WRITE (R366): A write to TIM_CTRL that changes PRESCALE, CLKSRC or EN restarts or stops the tick schedule. -/
  | timCtrlWrite (p : Path) (n i : Nat) (v : Word)
  /-- TIMER_TICK (R366): A prescaler tick or TIM_TICK pulse advances the count, with wrap and match effects. -/
  | timerTick (n i : Nat)
  /-- TIM_CAPT_READ (R369): A program read of TIM_CAPT returns the captured count and clears CAPT. -/
  | timCaptRead (p : Path) (n i : Nat)
  /-- BEAM_TIMER_FIRE (R372): An armed beam timer reaches its line and dot: FIRED sets, ARM clears and BTIM_FIRE is emitted. -/
  | beamTimerFire (n i : Nat)
  /-- EVENT_PULSE (R376): A pulse acts at every target whose route names its source, at its stamp. -/
  | eventPulse (n i : Nat)
  /-- EVT_SW (R375): A write of EVT_SW emits SWEV pulses. -/
  | evtSw (p : Path) (n : Nat) (v : Word)
  /-- THREE_FLOP_PULSE_ACTION (R518): With THREE_FLOP set, a pulse acts 3 vc after its stamp, or is lost if it is too close to the previous one. -/
  | threeFlopPulseAction (n i : Nat)
  /-- CDC_INST_MODE_WRITE (R518): A write of THREE_FLOP lands only while the instance is Shelved, absent or clamped; otherwise it sets INST_REFUSED. -/
  | cdcInstModeWrite (n : Nat) (v : Word)
  /-- VID_VC_LO_READ (R91): A read returns the low bits of the stamp, or the host position, and holds the high bits for VID_VC_HI. -/
  | vidVcLoRead (p : Path) (n : Nat)
  /-- VID_TIMING_WRITE (R120): A write of the timing mode takes effect at the next frame latch, with PENDING shown until then. -/
  | vidTimingWrite (p : Path) (n : Nat) (v : Word)
  /-- HOST_WRITE_LAND (R105): Host writes held while Playing land at the next frame boundary, in order of arrival. -/
  | hostWriteLand (n : Nat)
  /-- FRAME_RELEASE (R107): A frame is released by its pacing mode once every thread stands at its boundary, and its input record is written. -/
  | frameRelease (n : Nat)
  /-- PACING_DEADLINE_EXPIRE (R108): The pacing deadline D(F) passes and makes a frame releasable without its packet. -/
  | pacingDeadlineExpire (n : Nat)
  /-- VID_PACE_REANCHOR (R112): A write of REANCHOR re-anchors the pacing grid at the next release. -/
  | vidPaceReanchor (n : Nat) (v : Word)
  /-- LINE_STATE_POINT (R116): At a line's state point the instance hands a line job to the beam scheduler, waiting for a free entry. -/
  | lineStatePoint (n : Nat)
  /-- FRAME_LATCH (R188): At the frame latch a pending composer commit copies the shadows to the live copies, and the timing mode latches. -/
  | frameLatch (n : Nat)
  /-- CMP_COMMIT (R187): A write of 1 to COMMIT makes a composer commit pending for the next latch. -/
  | cmpCommit (p : Path) (n : Nat) (v : Word)
  /-- LINE_DISPATCH (R118): A renderer takes the next line job of its group by deadline, or a catch-up job. -/
  | lineDispatch (n k : Nat)
  /-- LINE_RENDER_DONE (R119): A renderer finishes a line: status, capture and staging follow, and a late line is counted. -/
  | lineRenderDone (k : Nat)
  /-- JOURNAL_RETIRE (R98): The head journal entry lands once every line at or before its stamp is captured, and its credit returns. -/
  | journalRetire (n : Nat)
  /-- ENGINE_BEAT_LAND (R104): A held engine beat lands once lines are captured and threads have passed its stamp. -/
  | engineBeatLand (n : Nat)
  /-- RENDERER_ROTATION (R22): Every 200 ms the renderer out of service rejoins and the next one of its set leaves for self-test. `pass` is the
verdict on the set's compressor, which is tested at the swap (R526). -/
  | rendererRotation (s : Nat) (pass : Bool := true)
  /-- RENDERER_TEST_DONE (R526): A renderer's 120 ms self-test ends with pass, or fail and retirement. -/
  | rendererTestDone (s : Nat) (pass : Bool)
  /-- BLIT_ENGINE_TEST (R526): Every 100 ms one blit engine in turn is self-tested. -/
  | blitEngineTest (k : Nat) (pass : Bool)
  /-- CORE_TEST (R526): Each audit core is self-tested once every second. -/
  | coreTest (k : Nat) (pass : Bool)
  /-- BLT_SUBMIT (R215): A write of GO copies the descriptor into a new blit job and increments SEQ. -/
  | bltSubmit (p : Path) (n : Nat) (v : Word)
  /-- BLIT_JOB_CREDIT_WAIT (R230): A submitted job enters the shared blit job queue once it holds a credit. -/
  | blitJobCreditWait (n : Nat)
  /-- BLIT_JOB_TAKE (R230): A free blit engine takes the oldest job from the queue and returns its credit. -/
  | blitJobTake (k : Nat)
  /-- BLIT_JOB_START (R221): At S the job is checked for pitch, range and overlap scratch, and ends at once on failure. -/
  | blitJobStart (n : Nat)
  /-- BLIT_BEAT (R219): A blit beat reads its source pixels and writes at its modelled stamp. -/
  | blitBeat (n : Nat)
  /-- BLIT_SET_ASIDE (R231): An engine with 64 held beats sets its job aside and takes the next job. -/
  | blitSetAside (k : Nat)
  /-- BLIT_RESUME (R231): A job set aside resumes on a free engine once its held beats land. -/
  | blitResume (k : Nat)
  /-- DMA_START (R382): A START write or DMA_START pulse starts a transfer if the channel is idle; otherwise IGNORED sets. -/
  | dmaStart (p : Path) (n i : Nat) (v : Word)
  /-- DMA_CHECK (R383): At s + 2 the transfer's segments are checked and fixed, and a failure ends it with no write. -/
  | dmaCheck (n i : Nat)
  /-- DMA_BEAT (R384): The modelled pipe reads a beat of the chosen channel and stamps its write. -/
  | dmaBeat (n : Nat)
  /-- AUDIO_SAMPLE (R284): The mixer computes one sample: voices, buses, filter, echo, ramps and crossfades. -/
  | audioSample (n : Nat)
  /-- RESTART (R281): A write of RESTART sets KEY and keys the voice on at the next sample. -/
  | audRestart (p : Path) (n i : Nat) (v : Word)
  /-- AUD_SAMPLE_LO_READ (R298): A read returns the low sample number and holds the high bits for AUD_SAMPLE_HI. -/
  | audSampleLoRead (p : Path) (n : Nat)
  /-- STREAM_SLOT_CLAIM (R247): At SP(F, 0) a stream buffer slot is claimed, dropping the oldest packet or stalling when none is free. -/
  | streamSlotClaim (n : Nat)
  /-- COMPRESS_ROW (R245): A compressor encodes a block row of four lines into the frame packet. -/
  | compressRow (s : Nat)
  /-- PACKET_COMPLETE (R236): A frame packet becomes complete with its video, audio block, marks and signatures. -/
  | packetComplete (n : Nat)
  /-- PACKET_MOVE (R249): A mover copies a complete packet to the stream ring when there is room and posts its completion. -/
  | packetMove (n : Nat)
  /-- WHISTLE_WATCHDOG_EXPIRE (R256): Three frame periods after a release with no packet, FREEZE sets. -/
  | whistleWatchdogExpire (n : Nat)
  /-- BYPASS_BLOCK_MOVE (R481): A bypass block is written to the audio ring, or dropped when there is no room. -/
  | bypassBlockMove (n : Nat)
  /-- MONITOR_FRAME_START (R271): At each monitor frame start an output selects the newest qualifying packet and holds its slot. -/
  | monitorFrameStart (k : Nat)
  /-- MONITOR_SLOT_RELEASE (R271): An output releases its slot within 1 us of being disabled or losing its link or clock. -/
  | monitorSlotRelease (k : Nat)
  /-- DP_LINK_TRAIN (R269): An output reads the sink DPCD and trains its link, setting LINK_SHORT if too slow. -/
  | dpLinkTrain (k lanes rate : Nat)
  /-- HPD_EVENT (R544): A filtered HPD rise, sink IRQ pulse or unplug is taken. -/
  | hpdEvent (k : Nat) (e : HpdKind)
  /-- CMP_BELL_COMMIT (R208): A write of Bell COMMIT is refused or makes the staging bank pending. -/
  | cmpBellCommit (n : Nat) (v : Word)
  /-- BELL_BANK_SWITCH (R208): The staging bank becomes active for the first frame released after the commit, and PENDING clears. -/
  | bellBankSwitch (n : Nat)
  /-- BELL_SURFACE_WRITE (R207): A write through the surface window writes the staging bank, or is refused while a commit is pending. -/
  | bellSurfaceWrite (off width v : Nat)
  /-- CHECKPOINT (R433): At a frame boundary Bellows takes checkpoint F once everything stamped before it has landed. -/
  | checkpoint (n : Nat)
  /-- UNDO_COPY (R436): Before the first write of an interval to a block, its old contents are copied to the undo record. -/
  | undoCopy (n region block : Nat)
  /-- AUDIT_RUN (R445): An audit slot re-runs one frame of an instance and compares its digest. -/
  | auditRun (n slot again : Nat) (r : AuditOutcome)
  /-- HOLD (R452): Stop the instance at the next frame boundary, Held with AT_BOUNDARY 1. -/
  | hold (n : Nat)
  /-- HOLD_NOW (R452): Stop each thread at its next word boundary. -/
  | holdNow (n : Nat)
  /-- PLAY (R450): Raise the instance to Playing, restoring rungs and re-anchoring pacing. -/
  | play (n : Nat) (shelf : Option (List Byte))
  /-- BENCH (R453): Move the instance to Benched. -/
  | bench (n : Nat) (shelf : Option (List Byte))
  /-- PARK (R453): Move the instance to Parked. -/
  | park (n : Nat) (shelf : Option (List Byte))
  /-- SHELVE (R456): Write the shelf image to host extents and move the instance to Shelved. -/
  | shelve (n : Nat)
  /-- REWIND (R440): Restore the instance to an earlier checkpoint and enter catch-up. -/
  | rewind (n : Nat)
  /-- RESET (R450): Instance reset on the present rung. -/
  | instReset (n : Nat)
  /-- ADOPT (R450): Set SHELF_VALID so that the next raise reads the shelf image. -/
  | adopt (n : Nat)
  /-- RUNG_COMMAND_DEQUEUE (R449): A queued rung command starts when fewer than 16 run on the chip. -/
  | rungCommandDequeue (n : Nat)
  /-- CMD_ENTRY (R477): The device reads the next CMD ring entry of an idle instance; NOP completes with OK. -/
  | cmdEntry (n : Nat) (entry : List Byte)
  /-- INPUT_ARRIVE (R475): An INPUT ring entry's read completes and it is held, replaces a held packet, or is dropped late. -/
  | inputArrive (n : Nat) (entry : List Byte)
  /-- WRITE (R429): Extent Table WRITE: the staged entry replaces the entry after write-back and drop of its leaves. -/
  | extWrite
  /-- READ (R429): Extent Table READ: the entry is copied into EXT_STAGE. -/
  | extRead
  /-- FLUSH (R426): Write the extent's dirty leaves back to host memory. -/
  | extFlush
  /-- DROP (R429): Drop the extent's clean leaves from the cache. -/
  | extDrop
  /-- FETCH (R429): Fetch every missing leaf of a host-target extent. -/
  | extFetch (leaves : List (Option (List Byte)))
  /-- EXT_SPAN_WRITE (R430): A span write sets FIRST or COUNT, cuts the span at the table end, or is refused with SPAN_REFUSED. -/
  | extSpanWrite (p : Path) (n : Nat) (count : Bool) (v : Word)
  /-- LEAF_MOVE (R424): A LEAF move reads a missing 64 KiB leaf into a cache frame, evicting and writing back as needed. -/
  | leafMove (extent leaf : Nat) (content : Option (List Byte))
  /-- COPY (R393): A PF mover COPY descriptor moves bytes between host IOVA, HBM and Pool. `desc` and `data` are
the descriptor and the source bytes that the host's memory answers with; `data` ends early where a read fails. -/
  | moverCopy (r : Nat) (desc data : List Byte)
  /-- FILL (R393): A PF mover FILL descriptor writes an 8-byte pattern over a range. -/
  | moverFill (r : Nat) (desc : List Byte)
  /-- MOVER_DESCRIPTOR_COMPLETE (R395): A descriptor completes with its status, writing a MOVER completion entry and halting on error if set. -/
  | moverDescriptorComplete (r : Nat)
  /-- HST_MV_TAIL (R396): A doorbell write of a mover ring makes descriptors pending. -/
  | hstMvTail (r : Nat) (v : Word)
  /-- MOVER_RING_DISABLE (R396): A write of EN 0 stops a mover ring and aborts the descriptors in flight. -/
  | moverRingDisable (r : Nat)
  /-- MOVER_RING_RESUME (R396): Writing 1 to HALTED resumes a halted mover ring. -/
  | moverRingResume (r : Nat)
  /-- HST_VF_RING_ENABLE (R470): Setting EN of a VF ring zeroes its pointers and starts the phase. -/
  | hstVfRingEnable (p : Path) (n r : Nat) (v : Word)
  /-- HST_VF_DB (R471): A doorbell write sets the host pointer, or is ignored with DB_ERR. -/
  | hstVfDb (p : Path) (n r : Nat) (v : Word)
  /-- IRQ_DELAY_EXPIRE (R483): DELAY_US after the first unsignalled completion entry, vector 0 fires. -/
  | irqDelayExpire (n : Nat)
  /-- RING_READ_FAIL (R488): A failed read of an INPUT or CMD ring disables it and writes a RING_ERR completion. -/
  | ringReadFail (n r : Nat)
  /-- FLR (R492): A function-level reset of a VF stops its rings, shelves its instance from reset and resets its registers. -/
  | flr (n : Nat)
  /-- VF_ENABLE_CLEAR (R493): Clearing VF Enable or lowering NumVFs acts as an FLR on each removed VF. -/
  | vfEnableClear (count : Nat)
  /-- BUS_MASTER_ENABLE_CHANGE (R466): A change of Bus Master Enable suspends or resumes the function's requests and rings. -/
  | busMasterEnableChange (fn : Nat) (on : Bool)
  /-- UNSUPPORTED_REQUEST (R489): A request to a BAR that does not decode completes with Unsupported Request. -/
  | unsupportedRequest (p : Path) (a : RegAddr)
  /-- POISONED_WRITE (R489): A poisoned write TLP is discarded and reported. -/
  | poisonedWrite (p : Path) (a : RegAddr)
  /-- LINK_TRAIN (R462): The PCIe link trains or retrains; a retrain to a lower rate is not a reset. -/
  | linkTrain (lanes rate : Nat) (flit : Bool)
  /-- CHANNEL_WATCHDOG_EXPIRE (R490): A mover channel blocked for MS ms sets STALLED and raises the channel-stall source. -/
  | channelWatchdogExpire (k : Nat)
  /-- RUN (R506): A write of TARGET RUN orders the chip to Idle. -/
  | powerRun
  /-- RETAIN (R504): A write of TARGET RETAIN is refused or runs the Retain entry steps. -/
  | retain
  /-- DOZE (R504): A write of TARGET DOZE is refused or runs the Doze entry steps. -/
  | doze
  /-- IDLE_ENTER (R502): After the idle conditions have held for 100 us, the chip gates into Idle. -/
  | idleEnter
  /-- IDLE_EXIT (R502): An idle condition ceases and the chip returns to Run within 10 us. -/
  | idleExit
  /-- RAMP_START (R509): When a ramp slot frees, the governor starts the highest-priority queued ramp. -/
  | rampStart
  /-- RAMP_END (R508): A domain ramp ends and its crossings are released. -/
  | rampEnd (d : Nat)
  /-- DRAIN_COMPLETE (R511): A draining domain's last transfer completes and it powers off or retains. -/
  | drainComplete (d : Nat)
  /-- DRAIN_FORCED (R512): A drain unfinished after 100 us forces the domain off and fails transfers in flight. -/
  | drainForced (d : Nat)
  /-- LINK_SLEEP_ENTER (R507): In Doze with L1.2 enabled, the link enters L1.2. -/
  | linkSleepEnter
  /-- LINK_SLEEP_EXIT (R507): An L1.2 exit returns the chip to Doze; WAKE# asserts for a pending source. -/
  | linkSleepExit
  /-- SCRUB_STEP (R408): A Pool scrub step reads one row of every bank in a reserved cycle. `upsets` are the words that the world
outside has corrupted since, each in one bit or in two. -/
  | scrubStep (upsets : List (WordAt × Bool) := [])
  /-- POOL_SELF_TEST (R409): Between scrub passes, march patterns run in test rows and free granules. -/
  | poolSelfTest (g : Nat) (pass : Bool)
  /-- HBM_PATROL_SCRUB (R418): The patrol scrubber reads the HBM stack once every 8 hours. -/
  | hbmPatrolScrub
  /-- INJECT_CE (R411): Corrupt one check bit of the word at POOL_INJ_ADDR. -/
  | injectCe
  /-- INJECT_UE (R411): Corrupt two check bits of the word at POOL_INJ_ADDR. -/
  | injectUe
  /-- LOCKSTEP_MISMATCH (R522): A management pair's cores disagree on an mclk, raising LOCKSTEP0 or LOCKSTEP1. -/
  | lockstepMismatch (k : Nat)
  /-- MGT_HEARTBEAT (R522): Pair 0 strikes a heartbeat to pair 1 every 1 ms. -/
  | mgtHeartbeat
  /-- MGT_WATCHDOG (R522): No heartbeat for 10 ms raises cause MGT_WATCHDOG. -/
  | mgtWatchdog
  /-- CLOCK_MONITOR_WINDOW (R523): Each 2 us window counts clocks against the reference and raises CLOCK or AV_CLOCK on fault. -/
  | clockMonitorWindow (c : ClockName) (count : Nat) (lost : Bool)
  /-- VOLTAGE_SAMPLE (R524): Rails are sampled every 0.5 us, and four samples out of window raise VOLTAGE. -/
  | voltageSample (rail : Rail) (uv : Nat)
  /-- TEMP_CROSSING (R525): An on-die sensor crossing 100 C raises TEMP_WARN, and 115 C raises TEMP. -/
  | tempCrossing (level : TempLevel)
  /-- THERMTRIP (R525): A filtered assertion of THERMTRIP_N raises cause THERMTRIP. -/
  | thermtrip
  /-- TAMPER_ASSERT (R525): A filtered TAMPER assertion starts a Vault wipe. -/
  | tamperAssert (i : Nat)
  /-- TAMPER_WIPE_DONE (R525): The tamper wipe ends and raises cause TAMPER. -/
  | tamperWipeDone
  /-- HBM_LINK_LOSS (R532): The HBM interface loses training, raising cause HBM_LINK. -/
  | hbmLinkLoss
  /-- SAF_FORCE (R540): A keyed write forces a chip or instance fault reaction with cause HOST_FORCED. -/
  | safForce (v : Word)
  /-- SAF_TEST_REQ (R528): A GO write queues a requested test of one unit. -/
  | safTestReq (v : Word)
  /-- TEST_START (R528): A queued test starts once its unit drains. `pass` is the verdict on the compressor of a set whose renderers swap for
it (R526). -/
  | testStart (pass : Bool := true)
  /-- TEST_DEFER (R528): A test not started within 33.333 ms is deferred to the unit's next departure. -/
  | testDefer
  /-- TEST_DONE (R528): A requested test ends with PASS, FAIL or RETIRED and raises TEST_DONE. -/
  | testDone (pass : Bool)
  /-- GPIO_CFG_WRITE (R548): A GPIO_CFG write by the owner changes the pin's function, or is refused. -/
  | gpioCfgWrite (a : Agent) (p : Nat) (v : Word)
  /-- GPIO_SWITCH_SETTLE (R548): Two fclk after a function change, the pin takes its new setting and inputs follow it. -/
  | gpioSwitchSettle (p : Nat)
  /-- GPIO_TGL (R553): A write of GPIO_TGL inverts the output values of owned pins. -/
  | gpioTgl (a : Agent) (w : Nat) (v : Word)
  /-- GPIO_LOCK_KEY (R550): A key write advances or aborts an owner's lock sequence. -/
  | gpioLockKey (a : Agent) (v : Word)
  /-- GPIO_LOCKED_WRITE (R550): Step 3 of the sequence locks the owned pins in the mask; outside it, LOCK_ABORT sets. -/
  | gpioLockedWrite (a : Agent) (w : Nat) (v : Word)
  /-- GPIO_EDGE (R551): A selected pin edge is counted and latches its chip ICU source. -/
  | gpioEdge (p : Nat) (level : Bool) (closed : Nat)
  /-- FW_INFO (R563): Return the SEQ of both firmware copies and BOOT_COUNT. -/
  | fwInfo
  /-- FLASH_WRITE (R563): Verify, erase, program and read back a firmware copy in the boot flash. -/
  | flashWrite (copy again : Option (List Byte)) (readBack : Bool)
  /-- FLASH_ERASE (R563): Erase a firmware copy in the boot flash. -/
  | flashErase
  /-- BYPASS (R554): JTAG BYPASS instruction. -/
  | jtagBypass
  /-- IDCODE (R554): JTAG IDCODE shifts out the identification code. -/
  | idcode
  /-- SAMPLE_PRELOAD (R554): JTAG SAMPLE/PRELOAD of the boundary-scan chain. -/
  | samplePreload (v : Nat)
  /-- EXTEST (R554): JTAG EXTEST drives the balls, only in reset or in Blank or Returned. -/
  | extest (v : Nat)
  /-- CLAMP_INSTRUCTION (R554): JTAG CLAMP, under the same conditions as EXTEST. -/
  | clampInstruction
  /-- HIGHZ (R554): JTAG HIGHZ, under the same conditions as EXTEST. -/
  | highz
  /-- DP_LINK_LOSS (R269): A trained DisplayPort link is lost: LINK_UP clears, DPO_EVENT fires, the held slot is released and the output retrains. -/
  | dpLinkLoss (k : Nat)
  /-- I2S_BLOCK_DRAIN (R275): An I2S output consumes queued audio blocks at exactly fs, sends zeros and counts UNDERRUNS when its queue runs empty. -/
  | i2sBlockDrain (k : Nat)
  /-- ADAPTIVE_VOLTAGE_SCALING (R499): The management pair changes the VDD_CORE target from its on-die speed monitors, in steps of at most 10 mV, with the lower fault limit tracking POWER_GOOD. -/
  | adaptiveVoltageScaling (mv : Nat)
  /-- CORE_PARITY_FAULT (R20): A parity check of a core serving instances fails, and its instances take the instance fault reaction with cause CORE_FAULT, the core retiring at the next load. `p` is
the position of the core at which the check failed (R17): nothing depends on it, since R20 takes all instances of the core. -/
  | coreParityFault (c : Nat) (p : Nat := 0)
  /-- MEMORY_SPACE_ENABLE_CHANGE (R466): A change of a function's Memory Space Enable bit makes its BARs decode or stop decoding, so that requests to them complete with Unsupported Request. -/
  | memorySpaceEnableChange (fn : Nat) (on : Bool)
  deriving DecidableEq, Repr

end Sys2Proof
end

