-- ==== Sys2Proof/Machine/Offsets.lean ====
section
/-! DEFINITION. The offsets of the registers by their names in the manual: PF BAR0 offsets, instance-window offsets and
VF BAR2 offsets (R465, R13, R472). A replicated register has the offset of its item 0. -/
namespace Sys2Proof.Machine.O

abbrev MGT_IMG_CTRL : Nat := 0x100000
abbrev MGT_IMG_STATUS : Nat := 0x100004
abbrev MGT_IMG_SRC_LO : Nat := 0x100008
abbrev MGT_IMG_SRC_HI : Nat := 0x10000C
abbrev MGT_IMG_LEN : Nat := 0x100010
abbrev MGT_FUSE_ARM : Nat := 0x100014
abbrev MGT_FUSE_COUNTS : Nat := 0x100018
abbrev MGT_KEY_STATE : Nat := 0x10001C
abbrev MGT_LOADED_ID_LO : Nat := 0x100020
abbrev MGT_LOADED_ID_HI : Nat := 0x100024
abbrev MGT_ADMIT : Nat := 0x100028
abbrev MGT_SEALED : Nat := 0x10002C
abbrev MGT_LOG_HEAD_LO : Nat := 0x100030
abbrev MGT_LOG_HEAD_HI : Nat := 0x100034
abbrev MGT_CLAMP_COUNT : Nat := 0x100038
abbrev MGT_SLOT_INFO : Nat := 0x100040
abbrev MGT_REPORT : Nat := 0x101000
abbrev MGT_LOG : Nat := 0x120000
abbrev VID_BEAM : Nat := 0x2000
abbrev VID_LINE_VC : Nat := 0x2004
abbrev VID_FRAME : Nat := 0x2008
abbrev VID_VC_LO : Nat := 0x200C
abbrev VID_VC_HI : Nat := 0x2010
abbrev VID_TIMING : Nat := 0x2014
abbrev VID_TIMING_STATUS : Nat := 0x2018
abbrev VID_SCH_STATUS : Nat := 0x200000
abbrev VID_SCH_LATE_TOTAL : Nat := 0x200004
abbrev VID_SCH_CLAMP_COUNT : Nat := 0x200008
abbrev VID_PACE_CTRL : Nat := 0x201000
abbrev VID_PACE_SLACK : Nat := 0x201004
abbrev VID_PACE_STATUS : Nat := 0x201008
abbrev VID_LATE_LINES : Nat := 0x20100C
abbrev VID_FENCE_STALLS : Nat := 0x201010
abbrev VID_PAL_BASE : Nat := 0x2040
abbrev VID_STATUS : Nat := 0x2044
abbrev VID_CLAMP_COUNT : Nat := 0x2048
abbrev VID_TP_CTRL : Nat := 0x2080
abbrev VID_TP_MAP_BASE : Nat := 0x2084
abbrev VID_TP_PAT_BASE : Nat := 0x2088
abbrev VID_TP_SCROLL : Nat := 0x208C
abbrev SPR_CTRL : Nat := 0x2100
abbrev SPR_SAT_BASE : Nat := 0x2104
abbrev SPR_PAT_BASE : Nat := 0x2108
abbrev SPR_COLL_CTRL : Nat := 0x210C
abbrev SPR_STATUS : Nat := 0x2110
abbrev SPR_LINE_STATUS : Nat := 0x2114
abbrev SPR_LINE_FLAGS : Nat := 0x2118
abbrev SPR_COLL_POS : Nat := 0x211C
abbrev SPR_COLL_PAIR : Nat := 0x2120
abbrev CUE_CTRL : Nat := 0x2800
abbrev CUE_STATUS : Nat := 0x2804
abbrev CUE_CLAMP_COUNT : Nat := 0x2808
abbrev CUE_LIST_BASE : Nat := 0x2810
abbrev CUE_CURSOR : Nat := 0x2820
abbrev CUE_SCROLL : Nat := 0x2830
abbrev CUE_WIN : Nat := 0x2840
abbrev CUE_WIN_MASK : Nat := 0x2848
abbrev CMP_CTRL : Nat := 0x3000
abbrev CMP_BG : Nat := 0x3004
abbrev CMP_ORDER : Nat := 0x3008
abbrev CMP_COMMIT : Nat := 0x300C
abbrev CMP_STATUS : Nat := 0x3010
abbrev CMP_COMMIT_FRAME : Nat := 0x3014
abbrev CMP_CLAMP_COUNT : Nat := 0x3018
abbrev CMP_CAP_CTRL : Nat := 0x3020
abbrev CMP_CAP_SURF : Nat := 0x3024
abbrev CMP_L_CTRL : Nat := 0x3100
abbrev CMP_L_POS : Nat := 0x3104
abbrev CMP_L_SIZE : Nat := 0x3108
abbrev CMP_L_SURF : Nat := 0x310C
abbrev CMP_L_SRC_POS : Nat := 0x3110
abbrev CMP_L_SRC_SIZE : Nat := 0x3114
abbrev BLT_CTRL : Nat := 0x3800
abbrev BLT_SRC_SURF : Nat := 0x3804
abbrev BLT_SRC_POS : Nat := 0x3808
abbrev BLT_DST_SURF : Nat := 0x380C
abbrev BLT_DST_POS : Nat := 0x3810
abbrev BLT_SIZE : Nat := 0x3814
abbrev BLT_FILL : Nat := 0x3818
abbrev BLT_WM : Nat := 0x381C
abbrev BLT_SCRATCH : Nat := 0x3820
abbrev BLT_SUBMIT : Nat := 0x3824
abbrev BLT_STATUS : Nat := 0x3828
abbrev BLT_SUBMIT_SEQ : Nat := 0x382C
abbrev BLT_CLAMP_COUNT : Nat := 0x3830
abbrev STR_CTRL : Nat := 0x7000
abbrev STR_STATUS : Nat := 0x7004
abbrev STR_DROPPED : Nat := 0x7008
abbrev STR_LAST_FRAME_LO : Nat := 0x700C
abbrev STR_LAST_FRAME_HI : Nat := 0x7010
abbrev STR_CMP_STATUS : Nat := 0x400000
abbrev STR_INST_CFG : Nat := 0x401000
abbrev STR_FLASH : Nat := 0x401004
abbrev STR_SIG : Nat := 0x401008
abbrev DPO_CTRL : Nat := 0x404000
abbrev DPO_STATUS : Nat := 0x404004
abbrev DPO_I2S : Nat := 0x404008
abbrev AUD_CTRL : Nat := 0x4000
abbrev AUD_STATUS : Nat := 0x4004
abbrev AUD_CLAMP_COUNT : Nat := 0x4008
abbrev AUD_SAMPLE_LO : Nat := 0x400C
abbrev AUD_SAMPLE_HI : Nat := 0x4010
abbrev AUD_BUS : Nat := 0x4020
abbrev AUD_FILT_CTRL : Nat := 0x4040
abbrev AUD_FILT_COEF : Nat := 0x4044
abbrev AUD_ECHO_CTRL : Nat := 0x4050
abbrev AUD_ECHO_MIX : Nat := 0x4054
abbrev AUD_ECHO_DRY : Nat := 0x4058
abbrev AUD_V_CTRL : Nat := 0x4100
abbrev AUD_V_FREQ : Nat := 0x4104
abbrev AUD_V_VOL : Nat := 0x4108
abbrev AUD_V_ENV : Nat := 0x410C
abbrev AUD_V_ADDR : Nat := 0x4110
abbrev AUD_V_LEN : Nat := 0x4114
abbrev AUD_V_LOOP : Nat := 0x4118
abbrev AUD_V_POS : Nat := 0x411C
abbrev INST_THREAD_CTRL : Nat := 0x0
abbrev INST_THREAD_STATUS : Nat := 0x4
abbrev INST_RESET_PC : Nat := 0x8
abbrev INST_TVEC : Nat := 0xC
abbrev INST_CORE_CLAMP_COUNT : Nat := 0x10
abbrev INST_START_PC : Nat := 0x20
abbrev SEG_BASE : Nat := 0x100
abbrev SEG_LIMIT : Nat := 0x104
abbrev SEG_CTRL : Nat := 0x108
abbrev INST_T_PC : Nat := 0x400
abbrev INST_T_STAT : Nat := 0x404
abbrev INST_T_EPC : Nat := 0x408
abbrev INST_T_TRAPINFO : Nat := 0x40C
abbrev INST_T_TRAPCAUSE : Nat := 0x410
abbrev INST_T_TRAPADDR : Nat := 0x414
abbrev INST_T_SCRATCH0 : Nat := 0x418
abbrev INST_T_SCRATCH1 : Nat := 0x41C
abbrev INST_T_G : Nat := 0x480
abbrev INST_PRESENCE : Nat := 0xFFC
abbrev ICU_CLAIM : Nat := 0x1000
abbrev ICU_EOI : Nat := 0x1004
abbrev ICU_SWINT_SET : Nat := 0x1008
abbrev ICU_SWINT_CLR : Nat := 0x100C
abbrev ICU_PENDING_LO : Nat := 0x1010
abbrev ICU_PENDING_HI : Nat := 0x1014
abbrev ICU_INSERV_LO : Nat := 0x1018
abbrev ICU_INSERV_HI : Nat := 0x101C
abbrev ICU_CLAMP_COUNT : Nat := 0x1020
abbrev ICU_T_CTRL : Nat := 0x1040
abbrev ICU_SRC_CFG : Nat := 0x1100
abbrev TIM_CTRL : Nat := 0x1400
abbrev TIM_COUNT : Nat := 0x1404
abbrev TIM_TOP : Nat := 0x1408
abbrev TIM_CMP : Nat := 0x140C
abbrev TIM_CAPT : Nat := 0x1410
abbrev TIM_STATUS : Nat := 0x1414
abbrev BTIM_CTRL : Nat := 0x1500
abbrev BTIM_AT : Nat := 0x1504
abbrev BTIM_STATUS : Nat := 0x1540
abbrev TIM_CLAMP_COUNT : Nat := 0x1580
abbrev EVT_ROUTE : Nat := 0x6000
abbrev EVT_SW : Nat := 0x6100
abbrev EVT_CLAMP_COUNT : Nat := 0x6104
abbrev DMA_CTRL : Nat := 0x1800
abbrev DMA_SRC : Nat := 0x1804
abbrev DMA_DST : Nat := 0x1808
abbrev DMA_COUNT : Nat := 0x180C
abbrev DMA_STATUS : Nat := 0x1810
abbrev DMA_ERR_ADDR : Nat := 0x1814
abbrev DMA_CLAMP_COUNT : Nat := 0x1880
abbrev HST_MV_CH_STATUS : Nat := 0x880000
abbrev HST_MV_RING_LO : Nat := 0x880100
abbrev HST_MV_RING_HI : Nat := 0x880104
abbrev HST_MV_RING_SIZE : Nat := 0x880108
abbrev HST_MV_TAIL : Nat := 0x88010C
abbrev HST_MV_HEAD : Nat := 0x880110
abbrev HST_MV_RING_CTRL : Nat := 0x880114
abbrev HST_MV_CLAMP_COUNT : Nat := 0x880200
abbrev POOL_ECC_CTRL : Nat := 0x500000
abbrev POOL_INJ_ADDR : Nat := 0x500004
abbrev POOL_CE_COUNT : Nat := 0x500008
abbrev POOL_UE_COUNT : Nat := 0x50000C
abbrev POOL_ERR_ADDR : Nat := 0x500010
abbrev POOL_ERR_INFO : Nat := 0x500014
abbrev POOL_SCRUB_STATUS : Nat := 0x500018
abbrev POOL_COLLIDED_COUNT : Nat := 0x50001C
abbrev POOL_VAULT_STATUS : Nat := 0x500020
abbrev POOL_QUOTA : Nat := 0x501000
abbrev HBM_STATUS : Nat := 0x600000
abbrev HBM_ECC_CTRL : Nat := 0x600004
abbrev HBM_CE_COUNT : Nat := 0x600008
abbrev HBM_UE_COUNT : Nat := 0x60000C
abbrev HBM_ERR_ADDR_LO : Nat := 0x600010
abbrev HBM_ERR_ADDR_HI : Nat := 0x600014
abbrev HBM_ERR_INFO : Nat := 0x600018
abbrev HBM_REGION_BASE : Nat := 0x600100
abbrev HBM_INST_WORK : Nat := 0x601000
abbrev HBM_INST_STREAM : Nat := 0x601004
abbrev HBM_INST_INDEX : Nat := 0x601008
abbrev EXT_CMD : Nat := 0x700000
abbrev EXT_CMD_STATUS : Nat := 0x700004
abbrev EXT_WIN_SEL : Nat := 0x700008
abbrev EXT_CACHE_FRAMES : Nat := 0x70000C
abbrev EXT_CACHE_DIRTY : Nat := 0x700010
abbrev EXT_CLAMP_COUNT : Nat := 0x700014
abbrev EXT_STAGE : Nat := 0x700020
abbrev EXT_SPAN_FIRST : Nat := 0x701000
abbrev EXT_SPAN_COUNT : Nat := 0x701004
abbrev EXT_FAULT : Nat := 0x702000
abbrev BLW_CMD : Nat := 0x5000
abbrev BLW_CMD_STATUS : Nat := 0x5004
abbrev BLW_RUNG : Nat := 0x5008
abbrev BLW_RING : Nat := 0x500C
abbrev BLW_NEWEST_LO : Nat := 0x5010
abbrev BLW_NEWEST_HI : Nat := 0x5014
abbrev BLW_SEL : Nat := 0x5018
abbrev BLW_DIGEST_LO : Nat := 0x501C
abbrev BLW_DIGEST_HI : Nat := 0x5020
abbrev BLW_SHELF : Nat := 0x5024
abbrev BLW_AUDIT : Nat := 0x5028
abbrev BLW_CLAMP_COUNT : Nat := 0x502C
abbrev HST_VF_STATUS : Nat := 0x0
abbrev HST_VF_IRQ_MOD : Nat := 0x4
abbrev HST_VF_DROPS : Nat := 0x8
abbrev HST_VF_CLAMP_COUNT : Nat := 0xC
abbrev HST_VF_RING_LO : Nat := 0x1000
abbrev HST_VF_RING_HI : Nat := 0x1004
abbrev HST_VF_RING_SIZE : Nat := 0x1008
abbrev HST_VF_RING_CTRL : Nat := 0x100C
abbrev HST_VF_DEV_PTR : Nat := 0x1010
abbrev HST_VF_DB : Nat := 0x10000
abbrev HST_LINK_STATUS : Nat := 0x800000
abbrev HST_TAGS : Nat := 0x800004
abbrev HST_WD_CTRL : Nat := 0x800008
abbrev HST_WD_STATUS : Nat := 0x80000C
abbrev HST_ERR_STATUS : Nat := 0x800010
abbrev HST_CLAMP_COUNT : Nat := 0x800014
abbrev HST_PF_CQ_LO : Nat := 0x800100
abbrev HST_PF_CQ_HI : Nat := 0x800104
abbrev HST_PF_CQ_SIZE : Nat := 0x800108
abbrev HST_PF_CQ_CTRL : Nat := 0x80010C
abbrev HST_PF_CQ_DEV_PTR : Nat := 0x800110
abbrev HST_PF_CQ_DB : Nat := 0x800114
abbrev HST_VF_SUMMARY : Nat := 0x801000
abbrev CLK_STATUS : Nat := 0x900000
abbrev PWR_CTRL : Nat := 0x900004
abbrev PWR_STATUS : Nat := 0x900008
abbrev PWR_DOMAINS : Nat := 0x90000C
abbrev PWR_GOV_STATUS : Nat := 0x900010
abbrev PWR_DRAIN_FORCED : Nat := 0x900014
abbrev CDC_MODE : Nat := 0x900018
abbrev CDC_STATUS : Nat := 0x90001C
abbrev PWR_CLAMP_COUNT : Nat := 0x900020
abbrev CDC_INST_MODE : Nat := 0x901000
abbrev ICU_C_PENDING : Nat := 0xC00000
abbrev ICU_C_CLAMP_COUNT : Nat := 0xC00080
abbrev ICU_C_SRC_CFG : Nat := 0xC01000
abbrev SAF_STATUS : Nat := 0xA00000
abbrev SAF_CHIP_CAUSE : Nat := 0xA00004
abbrev SAF_FORCE : Nat := 0xA00008
abbrev SAF_TEST_REQ : Nat := 0xA0000C
abbrev SAF_TEST_STATUS : Nat := 0xA00010
abbrev SAF_UNITS : Nat := 0xA00014
abbrev SAF_REC_HEAD : Nat := 0xA00018
abbrev SAF_CLAMP_COUNT : Nat := 0xA0001C
abbrev SAF_INST_FAULT : Nat := 0xA00100
abbrev SAF_BELL_MAP : Nat := 0xA00140
abbrev SAF_WHISTLE_MAP : Nat := 0xA00180
abbrev SAF_FLASH_MAP : Nat := 0xA001C0
abbrev SAF_INST_CAUSE : Nat := 0xA01000
abbrev SAF_REC : Nat := 0xA04000
abbrev GPIO_IN : Nat := 0xB00000
abbrev GPIO_OUT : Nat := 0xB00010
abbrev GPIO_SET : Nat := 0xB00020
abbrev GPIO_CLR : Nat := 0xB00030
abbrev GPIO_TGL : Nat := 0xB00040
abbrev GPIO_LOCK_KEY : Nat := 0xB00050
abbrev GPIO_STATUS : Nat := 0xB00054
abbrev GPIO_STRAPS : Nat := 0xB00058
abbrev GPIO_CLAMP_COUNT : Nat := 0xB0005C
abbrev GPIO_LOCKED : Nat := 0xB00060
abbrev GPIO_CFG : Nat := 0xB00100
abbrev GPIO_EVCNT : Nat := 0xB00200
abbrev MGT_BOOT_STATUS : Nat := 0xD00000
abbrev MGT_FW_SEQ : Nat := 0xD00004
abbrev MGT_MBX_CMD : Nat := 0xD00008
abbrev MGT_MBX_STATUS : Nat := 0xD0000C
abbrev MGT_MBX_M2H : Nat := 0xD00010
abbrev MGT_MBX_CLAMP_COUNT : Nat := 0xD00014
abbrev MGT_MBX_ARG : Nat := 0xD00100
abbrev MGT_MBX_RSP : Nat := 0xD00200
abbrev CMP_BELL_CTRL : Nat := 0x380000
abbrev CMP_BELL_POS : Nat := 0x380004
abbrev CMP_BELL_SIZE : Nat := 0x380008
abbrev CMP_BELL_EXPECT : Nat := 0x38000C
abbrev CMP_BELL_COMMIT : Nat := 0x380010
abbrev CMP_BELL_CRC : Nat := 0x380014
abbrev CMP_BELL_STATUS : Nat := 0x380018
abbrev CMP_BELL_PAL : Nat := 0x380040
abbrev CMP_BELL_WIN_SEL : Nat := 0x390000
abbrev CMP_BELL_CLAMP_COUNT : Nat := 0x390004
abbrev HST_IDENT : Nat := 0x0

end Sys2Proof.Machine.O
end

