-- ==== Sys2Proof/Machine/Bits.lean ====
section
/-! DEFINITION. Bit fields, sign extension, byte order (R2), saturation, and the cyclic redundancy checks that the
chapters name by their polynomials. Every helper is a plain function on Nat or Int. -/
namespace Sys2Proof.Machine

/-- Bits [hi:lo] of a number. -/
def bits (v hi lo : Nat) : Nat := (v >>> lo) % 2 ^ (hi + 1 - lo)
/-- Bit b of a number, as 0 or 1. -/
def bit (v b : Nat) : Nat := (v >>> b) % 2
/-- Bit b of a number, as a truth value. -/
def tb (v b : Nat) : Bool := bit v b == 1
/-- `v` with bits [hi:lo] replaced by `x`. -/
def setBits (v hi lo x : Nat) : Nat :=
  let w := 2 ^ (hi + 1 - lo)
  v - (bits v hi lo) * 2 ^ lo + (x % w) * 2 ^ lo
/-- A truth value as 0 or 1. -/
def b2n (b : Bool) : Nat := if b then 1 else 0
/-- Two's complement reading of the low `w` bits. -/
def sext (w v : Nat) : Int :=
  let m := v % 2 ^ w
  if m < 2 ^ (w - 1) then (m : Int) else (m : Int) - (2 ^ w : Nat)
/-- The low `w` bits of an integer. -/
def wrap (w : Nat) (i : Int) : Nat := (i % ((2 ^ w : Nat) : Int)).toNat
/-- An integer clamped into [lo, hi]. -/
def clampI (lo hi v : Int) : Int := if v < lo then lo else if hi < v then hi else v
/-- A count that saturates at a maximum (R9). -/
def satAdd (mx a b : Nat) : Nat := min mx (a + b)
/-- The integer of a natural number rounded up to a multiple. -/
def roundUp (v m : Nat) : Nat := (v + m - 1) / m * m
/-- Ceiling division. -/
def cdiv (a b : Nat) : Nat := (a + b - 1) / b

/-- Little-endian bytes of a number (R2). -/
def leBytes : Nat → Nat → List Byte
  | 0, _ => []
  | k + 1, v => BitVec.ofNat 8 v :: leBytes k (v / 256)
/-- The number that little-endian bytes spell (R2). -/
def leNat : List Byte → Nat
  | [] => 0
  | b :: r => b.toNat + 256 * leNat r
/-- The number that big-endian bytes spell (the ECDSA fields of R42). -/
def beNat (l : List Byte) : Nat := l.foldl (fun a b => a * 256 + b.toNat) 0
/-- Big-endian bytes of a number. -/
def beBytes (k v : Nat) : List Byte := (leBytes k v).reverse

/-- A little-endian field of a byte list: `n` bytes from `off`. -/
def field (l : List Byte) (off n : Nat) : Nat := leNat ((l.drop off).take n)

/-- The xor of two numbers' binary digits. -/
def nxor (a b : Nat) : Nat := a ^^^ b

/-- One byte into a reflected CRC of a given reversed polynomial. -/
def crcStep (poly crc byte : Nat) : Nat :=
  (List.range 8).foldl (fun c _ => if c % 2 = 1 then nxor (c / 2) poly else c / 2) (nxor crc byte)
/-- CRC-32 of IEEE 802.3: reflected, preset and final complement of ones (R77). PRESUMED: the usual form of the
named polynomial. -/
def crc32 (l : List Byte) : Nat :=
  nxor (l.foldl (fun c b => crcStep 0xEDB88320 c b.toNat) 0xFFFFFFFF) 0xFFFFFFFF

/-- The bits of a number reversed within a width. -/
def reverseBits (w v : Nat) : Nat :=
  (List.range w).foldl (fun a i => a * 2 + bit v i) 0
/-- The number of one bits within a width. -/
def popCount (w v : Nat) : Nat := (List.range w).foldl (fun a i => a + bit v i) 0

/-- The state `f` folds to over 0, 1, ..., n - 1. -/
def loop {σ : Type} (n : Nat) (f : Nat → σ → σ) (s : σ) : σ := (List.range n).foldl (fun s i => f i s) s

end Sys2Proof.Machine
end

