-- ==== Sys2Proof/Machine/BlitJob.lean ====
section
/-! DEFINITION. A blit job as its descriptor gives it (07_blitter.md, R213 to R224): sizes, rates, processing order,
spans, and the checks at its start. -/
namespace Sys2Proof.Machine

/-- The descriptor registers that GO copies (R215), and the job's place in the instance's sequence. -/
structure BlitDesc where
  ctrl    : Nat
  srcSurf : Nat
  srcPos  : Nat
  dstSurf : Nat
  dstPos  : Nat
  size    : Nat
  fill    : Nat
  wm      : Nat
  scratch : Nat
  deriving DecidableEq, Repr

/-- OP of BLT_CTRL (R213). -/
def BlitDesc.op (d : BlitDesc) : Nat := bits d.ctrl 2 0
/-- Pixel size b in bytes (R213). -/
def BlitDesc.b (d : BlitDesc) : Nat := 1 <<< bits d.ctrl 5 4
/-- Source width (R214). -/
def BlitDesc.w (d : BlitDesc) : Nat := bits d.size 12 0
/-- Source height (R214). -/
def BlitDesc.h (d : BlitDesc) : Nat := bits d.size 27 16
/-- Destination width W' (R217). -/
def BlitDesc.w' (d : BlitDesc) : Nat := if d.op = 2 || d.op = 4 then d.h else d.w
/-- Destination height H' (R217). -/
def BlitDesc.h' (d : BlitDesc) : Nat := if d.op = 2 || d.op = 4 then d.w else d.h
/-- N pixels (R218). -/
def BlitDesc.n (d : BlitDesc) : Nat := d.w' * d.h'
/-- Pixels per vc (R217). -/
def BlitDesc.rate (d : BlitDesc) : Nat := if d.op = 0 then 8 else if d.op = 1 then 16 else 4
/-- Whether the operation is a rotate or mirror (R223). -/
def BlitDesc.isXform (d : BlitDesc) : Bool := decide (2 ≤ d.op)

/-- Row pitch P of a surface register (R214). -/
def surfPitch (s : Nat) : Nat := bits s 27 16 * 16
/-- VRAM offset of pixel (x, y) of a surface (R216). -/
def surfAddr (s b x y : Nat) : Nat := bits s 15 0 * 2048 + y * surfPitch s + x * b

/-- First and last byte of a rectangle (R221). -/
def rectSpan (s pos b w h : Nat) : Nat × Nat :=
  let a := surfAddr s b (bits pos 12 0) (bits pos 28 16)
  (a, a + (h - 1) * surfPitch s + w * b - 1)
/-- The source span (R221). -/
def BlitDesc.srcSpan (d : BlitDesc) : Nat × Nat := rectSpan d.srcSurf d.srcPos d.b d.w d.h
/-- The destination span (R221). -/
def BlitDesc.dstSpan (d : BlitDesc) : Nat × Nat := rectSpan d.dstSurf d.dstPos d.b d.w' d.h'
/-- Whether two byte spans intersect. -/
def spansMeet (p q : Nat × Nat) : Bool := decide (p.1 ≤ q.2) && decide (q.1 ≤ p.2)

/-- Rows or columns descend (R222). -/
def BlitDesc.descend (d : BlitDesc) : Bool × Bool :=
  if d.op = 0 && d.srcSurf = d.dstSurf then
    (decide (bits d.srcPos 28 16 < bits d.dstPos 28 16), decide (bits d.srcPos 12 0 < bits d.dstPos 12 0))
  else (false, false)

/-- Destination position (x', y') of pixel p of the processing order (R218). -/
def BlitDesc.dstPixel (d : BlitDesc) (p : Nat) : Nat × Nat :=
  let r := p / d.w'
  let c := p % d.w'
  ((if d.descend.2 then d.w' - 1 - c else c), (if d.descend.1 then d.h' - 1 - r else r))

/-- The source pixel (x, y) that destination pixel (x', y') shows (R217, inverted). -/
def BlitDesc.srcOf (d : BlitDesc) (x' y' : Nat) : Nat × Nat :=
  match d.op with
  | 2 => (y', d.h - 1 - x')
  | 3 => (d.w - 1 - x', d.h - 1 - y')
  | 4 => (d.w - 1 - y', x')
  | 5 => (d.w - 1 - x', y')
  | 6 => (x', d.h - 1 - y')
  | _ => (x', y')

/-- VRAM offset of a destination pixel (R216, R217). -/
def BlitDesc.dstAddr (d : BlitDesc) (x' y' : Nat) : Nat :=
  surfAddr d.dstSurf d.b (bits d.dstPos 12 0 + x') (bits d.dstPos 28 16 + y')
/-- VRAM offset of a source pixel (R216, R217). -/
def BlitDesc.srcAddr (d : BlitDesc) (x y : Nat) : Nat :=
  surfAddr d.srcSurf d.b (bits d.srcPos 12 0 + x) (bits d.srcPos 28 16 + y)

/-- BAD_PITCH for a rectangle of `w` by `h` pixels on a surface (R221). -/
def badPitch (s b w h : Nat) : Bool := decide (1 < h) && decide (surfPitch s < w * b)

/-- Whether the job needs scratch: a rotate or mirror whose spans intersect (R224). -/
def BlitDesc.needsScratch (d : BlitDesc) : Bool := d.isXform && spansMeet d.srcSpan d.dstSpan

/-- The result of the checks at S: 0 OK, 1 RANGE, 2 OVERLAP_XFORM, 4 BAD_PITCH (R221). -/
def BlitDesc.check (d : BlitDesc) (quota : Nat) (scratchOk : Bool) : Nat :=
  if d.w' = 0 || d.h' = 0 then 0
  else
    let src := d.op ≠ 1
    if badPitch d.dstSurf d.b d.w' d.h' || (src && badPitch d.srcSurf d.b d.w d.h) then 4
    else if decide (quota ≤ d.dstSpan.2) || (src && decide (quota ≤ d.srcSpan.2)) then 1
    else if d.needsScratch && !scratchOk then 2
    else 0

/-- Beats of pass 1 and of the operation itself (R219, R224). -/
def BlitDesc.passes (d : BlitDesc) : Nat × Nat :=
  if d.w' = 0 || d.h' = 0 then (0, 0)
  else if d.needsScratch then (cdiv d.n 8, cdiv d.n 4)
  else (0, cdiv d.n d.rate)

/-- The beat of the operation that holds the last pixel of destination row `row`, none when the row is outside the
rectangle or nothing is written (R229). -/
def BlitDesc.wmBeat (d : BlitDesc) (row : Nat) : Option Nat :=
  if d.h' ≤ row || d.w' = 0 then none
  else
    let r := if d.descend.1 then d.h' - 1 - row else row
    some ((r * d.w' + d.w' - 1) / (if d.needsScratch then 4 else d.rate))

end Sys2Proof.Machine
end

