-- ==== Sys2Proof/Machine/Codec.lean ====
section
/-! DEFINITION. The compressed-surface format (08_stream_output.md, R239 to R244): the stream compressor's encoder and
the decoder that video layers and monitor outputs use. -/
namespace Sys2Proof.Machine

/-- The distinct values of a list in order of first occurrence. -/
def distinctOf (l : List Nat) : List Nat := l.foldl (fun a x => if a.contains x then a else a ++ [x]) []

/-- Index width of a PAL record of d colours (R241). -/
def palBits (d : Nat) : Nat := if d ≤ 2 then 1 else if d ≤ 4 then 2 else 4

/-- The 64 pixels of block column `c`, padding filled from the nearest pixel to the left (R240). The four lines are
given already padded below HEIGHT with the line above. -/
def blockPixels (lines : List (List Nat)) (width c : Nat) : List Nat :=
  (List.range 64).map fun i => (lines.getD (i / 16) []).getD (min (16 * c + i % 16) (width - 1)) 0

/-- One block record in the first way that applies (R242). -/
def encodeBlock (q : Nat) (prev : Option (List Nat)) (px : List Nat) : List Byte :=
  if prev = some px then [0xC0#8]
  else
    let ds := distinctOf px
    let d := ds.length
    if d = 1 then 0x40#8 :: leBytes q (px.headD 0)
    else if d ≤ 16 then
      let k := palBits d
      let num := (px.zipIdx.map fun (p, i) => (ds.findIdx (· == p)) <<< (i * k)).foldl (· + ·) 0
      BitVec.ofNat 8 (0x80 + (d - 1)) :: ((ds.map (leBytes q)).flatten ++ leBytes (8 * k) num)
    else 0x00#8 :: (px.map (leBytes q)).flatten

/-- The records of a block row from its block pixels, each compared with the one before (R242). -/
def encodeBlocks (q : Nat) : Option (List Nat) → List (List Nat) → List Byte
  | _, [] => []
  | prev, px :: r => encodeBlock q prev px ++ encodeBlocks q (some px) r

/-- A block row of up to four lines (R240); lines at or beyond HEIGHT repeat the pixel above. -/
def encodeRow (q width : Nat) (lines : List (List Nat)) : List Byte :=
  let last := lines.getLastD []
  let four := lines ++ List.replicate (4 - lines.length) last
  encodeBlocks q none ((List.range (cdiv width 16)).map (blockPixels four width))

/-- The row table offsets and the total length for block rows laid with no gap between them (R239, R242). -/
def rowOffsets (start : Nat) : List (List Byte) → List Nat × Nat
  | [] => ([], start)
  | r :: rs => let (o, t) := rowOffsets (start + r.length) rs; (start :: o, t)

/-- A whole compressed surface from its encoded block rows (R239). -/
def surfaceBytes (alpha width height : Nat) (rows : List (List Byte)) : List Byte :=
  let (offs, total) := rowOffsets (16 + 4 * rows.length) rows
  leBytes 2 0x5343 ++ leBytes 1 alpha ++ leBytes 1 0 ++ leBytes 2 width ++ leBytes 2 height ++ leBytes 4 total
    ++ leBytes 4 0 ++ (offs.map (leBytes 4)).flatten ++ rows.flatten

/-- What decoding of a block gives: its 64 colours, or nothing for a failed block; and whether a byte of its record
was fetched at or above the quota (R244). -/
structure BlockOut where
  px    : Option (List Nat)
  range : Bool
  deriving DecidableEq, Repr

/-- A little-endian number at a surface offset. -/
def surfN (fb : Nat → Nat) : Nat → Nat → Nat
  | 0, _ => 0
  | n + 1, a => fb a + 256 * surfN fb n (a + 1)

/-- One record at `pos`, for block column `c`, with `prev` the block before: its pixels and its length, or none for a
record error (R241, R243). -/
def decodeRecord (fb : Nat → Nat) (q c : Nat) (prev : List Nat) (pos stop : Nat) : Option (List Nat × Nat) :=
  if stop ≤ pos then none else
  let h := fb pos
  let cnt := h % 16
  if bits h 5 4 ≠ 0 then none else
  let fits (n : Nat) (px : List Nat) : Option (List Nat × Nat) := if pos + n ≤ stop then some (px, n) else none
  match h / 64 with
  | 0 => if cnt ≠ 0 then none else fits (1 + 64 * q) ((List.range 64).map fun i => surfN fb q (pos + 1 + q * i))
  | 1 => if cnt ≠ 0 then none else fits (1 + q) (List.replicate 64 (surfN fb q (pos + 1)))
  | 2 =>
    if cnt = 0 then none else
    let d := cnt + 1
    let k := palBits d
    let cols := (List.range d).map fun i => surfN fb q (pos + 1 + q * i)
    let ib := pos + 1 + q * d
    let idx := (List.range 64).map fun i => (fb (ib + i * k / 8) >>> (i * k % 8)) % 2 ^ k
    if idx.any (fun i => decide (d ≤ i)) then none else fits (1 + q * d + 8 * k) (idx.map fun i => cols.getD i 0)
  | _ => if cnt ≠ 0 || c = 0 then none else fits 1 prev

/-- Whether one of `n` bytes from `a` on is bad. -/
def spanBad (bad : Nat → Bool) (a n : Nat) : Bool := (List.range n).any fun i => bad (a + i)

/-- The blocks of a row from column `c` on; the last component says that the records ended before the row (R243). -/
def decodeBlocks (fb : Nat → Nat) (bad : Nat → Bool) (q stop : Nat) : Nat → Nat → List Nat → Nat → List BlockOut × Bool
  | 0, _, _, pos => ([], decide (pos < stop))
  | n + 1, c, prev, pos =>
    match decodeRecord fb q c prev pos stop with
    | none => (List.replicate (n + 1) ⟨none, bad pos⟩, false)
    | some (px, len) =>
      let (r, short) := decodeBlocks fb bad q stop n (c + 1) px (pos + len)
      (⟨some px, spanBad bad pos len⟩ :: r, short)

/-- The header of a compressed surface, none on a header error (R239, R243). -/
structure SurfHdr where
  q      : Nat
  width  : Nat
  height : Nat
  total  : Nat
  deriving DecidableEq, Repr

/-- Read and check the surface header (R239, R243). -/
def surfHeader (fb : Nat → Nat) : Option SurfHdr :=
  let flags := fb 2
  let w := surfN fb 2 4
  let h := surfN fb 2 6
  let t := surfN fb 4 8
  if surfN fb 2 0 ≠ 0x5343 || decide (1 < flags) || fb 3 ≠ 0 || surfN fb 4 12 ≠ 0 || w = 0 || h = 0
      || decide (8191 < w) || decide (8191 < h) || decide (t < 16 + 4 * cdiv h 4) then none
  else some ⟨3 + flags, w, h, t⟩

/-- Entry r of the row table, and whether it is in error (R243). -/
def rowEntry (fb : Nat → Nat) (hd : SurfHdr) (r : Nat) : Nat × Bool :=
  let e := surfN fb 4 (16 + 4 * r)
  let lo := if r = 0 then 0 else surfN fb 4 (16 + 4 * (r - 1))
  (e, decide (e < 16 + 4 * cdiv hd.height 4) || decide (hd.total < e) || decide (e < lo))

/-- Block row r of a surface: one result per block column (R240, R243). `bad` tells the surface offsets at or above
the quota. -/
def decodeRow (fb : Nat → Nat) (bad : Nat → Bool) (hd : SurfHdr) (r : Nat) : List BlockOut :=
  let nb := cdiv hd.width 16
  let nr := cdiv hd.height 4
  let (start, e0) := rowEntry fb hd r
  let (stop, e1) := if r + 1 < nr then rowEntry fb hd (r + 1) else (hd.total, false)
  if e0 || e1 then List.replicate nb ⟨none, false⟩
  else
    let (bs, short) := decodeBlocks fb bad hd.q stop nb 0 [] start
    if short then bs.map fun b => { b with px := none } else bs

/-- Whether a byte of the header, or of the row-table entries that row r needs, is bad (R244). -/
def tableBad (bad : Nat → Bool) (hd : SurfHdr) (r : Nat) : Bool :=
  let r0 := r - 1
  let r1 := min (r + 1) (cdiv hd.height 4 - 1)
  spanBad bad 0 16 || spanBad bad (16 + 4 * r0) (4 * (r1 + 1 - r0))

/-- Pixel (sx, sy) of a decoded row: alpha and colour as one number, none where the block failed (R243, R244). -/
def rowPixel (bs : List BlockOut) (sx sy : Nat) : Option Nat × Bool :=
  match bs[sx / 16]? with
  | none => (none, false)
  | some b => (b.px.bind fun p => p[(sy % 4) * 16 + sx % 16]?, b.range)

end Sys2Proof.Machine
end

