-- ==== Sys2Proof/Machine/Video.lean ====
section
/-! DEFINITION. Tile planes, patterns, palettes and sprites (04_tile_planes_sprites.md): one visible line of the eight
layer sources, from the VRAM bytes and the registers as they stand at the line's state point (R94). -/
namespace Sys2Proof.Machine

/-- A renderer fetch of one byte: 0 at or above the quota (R124), for which `bad` holds. -/
def vramFetch (rd : Nat → Byte) (bad : Nat → Bool) (a : Nat) : Nat := if bad a then 0 else (rd a).toNat
/-- A little-endian fetch of `n` bytes at consecutive VRAM offsets. -/
def vramFetchN (rd : Nat → Byte) (bad : Nat → Bool) : Nat → Nat → Nat
  | 0, _ => 0
  | n + 1, a => vramFetch rd bad a + 256 * vramFetchN rd bad n (a + 1)

/-- What one pixel of one source came to: its colour, and which out-of-quota fetches it met (R124). -/
structure PixOut where
  col   : Option Nat
  range : Bool
  pal   : Bool
  deriving DecidableEq, Repr

/-- The offset of the byte that holds pixel (col, row) of a pattern (R133, R134). -/
def patByte (bpp8 : Bool) (base pat col row : Nat) : Nat :=
  if bpp8 then base * 2048 + pat * 64 + row * 8 + col
  else base * 2048 + pat * 32 + row * 4 + col / 2
/-- The pixel value in its byte (R133). -/
def patValue (bpp8 : Bool) (col byte : Nat) : Nat :=
  if bpp8 then byte else if col % 2 = 0 then byte % 16 else byte / 16

/-- The colour of a palette index of the plane (0) or sprite (1) palette, and whether its fetch met R124. -/
def palColour (rd : Nat → Byte) (bad : Nat → Bool) (palBase which idx : Nat) : Nat × Bool :=
  let a := palBase * 2048 + which * 1024 + 4 * idx
  (vramFetchN rd bad 3 a, bad a)

/-- The settings of one tile plane as its line uses them. -/
structure PlaneCfg where
  ctrl : Nat
  mapB : Nat
  patB : Nat
  hs   : Nat
  vs   : Nat
  deriving DecidableEq, Repr

/-- A plane's map side in tiles (R137). -/
def mapTiles (code : Nat) : Nat := if code = 1 then 64 else if code = 2 then 128 else 32

/-- The pixel of a tile plane at screen position x of line L (R141). -/
def tilePixel (rd : Nat → Byte) (bad : Nat → Bool) (palB : Nat) (p : PlaneCfg) (L x : Nat) : PixOut :=
  let clear : PixOut := ⟨none, false, false⟩
  if !tb p.ctrl 0 then clear else
  let mw := mapTiles (bits p.ctrl 7 6)
  let mh := mapTiles (bits p.ctrl 9 8)
  let bpp8 := tb p.ctrl 1
  let wrapOn := tb p.ctrl 2
  let mx0 := x + p.hs
  let my0 := L + p.vs
  if !wrapOn && (decide (mw * 8 ≤ mx0) || decide (mh * 8 ≤ my0)) then clear else
  let mx := mx0 % (mw * 8)
  let my := my0 % (mh * 8)
  let ea := p.mapB * 2048 + ((my / 8) * mw + mx / 8) * 2
  if bad ea then ⟨none, true, false⟩ else
  let e := vramFetchN rd bad 2 ea
  let px := if tb e 11 then 7 - mx % 8 else mx % 8
  let py := if tb e 12 then 7 - my % 8 else my % 8
  let pa := patByte bpp8 p.patB (e % 2048) px py
  if bad pa then ⟨none, true, false⟩ else
  let v := patValue bpp8 px (vramFetch rd bad pa)
  if v = 0 then clear else
  let ofs := bits p.ctrl 19 16
  let idx := if bpp8 then (ofs * 16 + v) % 256 else ((ofs + bits e 15 13) * 16 + v) % 256
  let (c, r) := palColour rd bad palB 0 idx
  ⟨some c, false, r⟩

/-- A sprite attribute entry, its fields pulled out of the Pool word (R144). -/
structure Sprite where
  idx   : Nat
  group : Nat
  coll  : Bool
  bpp8  : Bool
  vflip : Bool
  hflip : Bool
  w     : Nat
  h     : Nat
  pal   : Nat
  pat   : Nat
  x     : Int
  y     : Int
  deriving DecidableEq, Repr

/-- Entry `idx` of the attribute table, when its EN is 1 (R144). -/
def spriteOf (idx e : Nat) : Option Sprite :=
  if tb e 63 then
    some { idx, group := bits e 61 60, coll := tb e 59, bpp8 := tb e 58, vflip := tb e 57, hflip := tb e 56,
           h := 8 <<< bits e 55 54, w := 8 <<< bits e 53 52, pal := bits e 51 48, pat := bits e 42 32,
           y := sext 12 (bits e 27 16), x := sext 12 (bits e 11 0) }
  else none

/-- A selected sprite with the screen columns it may draw, from `lo` up to but not including `hi` (R146, R147). -/
structure Selected where
  spr : Sprite
  lo  : Nat
  hi  : Nat
  deriving DecidableEq, Repr

/-- The walk of R146 so far. -/
structure SprWalk where
  count    : Nat := 0
  used     : Nat := 0
  sel      : List Selected := []
  ovfCount : Bool := false
  ovfPix   : Bool := false
  first    : Nat := 0
  range    : Bool := false
  deriving DecidableEq, Repr

/-- One step of the walk: the entry at `idx` (R146). -/
def sprStep (rd : Nat → Byte) (bad : Nat → Bool) (satB maxS limP width L idx : Nat) (k : SprWalk) : SprWalk :=
  if k.ovfCount || k.ovfPix then k else
  let a := satB * 2048 + 8 * idx
  if bad a then { k with range := true } else
  match spriteOf idx (vramFetchN rd bad 8 a) with
  | none => k
  | some s =>
    if (L : Int) < s.y || s.y + s.h ≤ (L : Int) then k
    else if k.count = maxS then { k with ovfCount := true, first := idx }
    else
      let lo := (max 0 s.x).toNat
      let hi := (min (width : Int) (s.x + s.w)).toNat
      let w := hi - lo
      if limP < k.used + w then
        let room := limP - k.used
        if 0 < room then
          { k with sel := k.sel ++ [⟨s, lo, lo + room⟩], count := k.count + 1, used := limP, ovfPix := true, first := idx }
        else { k with ovfPix := true, first := idx }
      else { k with sel := k.sel ++ [⟨s, lo, lo + w⟩], count := k.count + 1, used := k.used + w }

/-- Sprite evaluation of one line (R146). -/
def sprEval (rd : Nat → Byte) (bad : Nat → Bool) (satB maxS limP width L : Nat) : SprWalk :=
  loop 256 (sprStep rd bad satB maxS limP width L) {}

/-- The pixel value of a selected sprite at screen x on line L, with whether its pattern byte met R124 (R145). -/
def sprPixel (rd : Nat → Byte) (bad : Nat → Bool) (patB : Nat) (q : Selected) (L x : Nat) : Nat × Bool :=
  if x < q.lo || q.hi ≤ x then (0, false) else
  let s := q.spr
  let c0 := ((x : Int) - s.x).toNat
  let r0 := ((L : Int) - s.y).toNat
  let c := if s.hflip then s.w - 1 - c0 else c0
  let r := if s.vflip then s.h - 1 - r0 else r0
  let k := (s.pat + (r / 8) * (s.w / 8) + c / 8) % 2048
  let a := patByte s.bpp8 patB k (c % 8) (r % 8)
  if bad a then (0, true) else (patValue s.bpp8 (c % 8) (vramFetch rd bad a), false)

/-- The colour index of an opaque sprite pixel (R136). -/
def sprIndex (s : Sprite) (v : Nat) : Nat := if s.bpp8 then v else s.pal * 16 + v

/-- The first collision found on a line (R155): position, kind, and the two parties. -/
structure Collision where
  x     : Nat
  plane : Bool
  front : Nat
  other : Nat
  deriving DecidableEq, Repr

/-- What the sprite unit and the planes produce at one screen position. -/
structure ColumnOut where
  src   : List (Option Nat)
  vst   : Nat
  ss    : Option Collision
  sp    : Option Collision
  deriving DecidableEq, Repr

/-- The eight sources at screen position x of line L, before any window (R121, R141, R148, R151). -/
def columnOut (rd : Nat → Byte) (bad : Nat → Bool) (palB sprPatB collCtrl : Nat) (planes : List PlaneCfg) (sel : List Selected)
    (L x : Nat) : ColumnOut :=
  let tps := planes.map fun p => tilePixel rd bad palB p L x
  let pix := sel.map fun q => (q, sprPixel rd bad sprPatB q L x)
  let opaquePix := pix.filter fun e => e.2.1 ≠ 0
  let groups := (List.range 4).map fun g =>
    match opaquePix.find? (fun e => e.1.spr.group = g) with
    | none => (none, false)
    | some (q, v, _) =>
      let (c, r) := palColour rd bad palB 1 (sprIndex q.spr v)
      (some c, r)
  let rTp := tps.zipIdx.foldl (fun a e => if e.1.range then a ||| (1 <<< e.2) else a) 0
  let rSpr := pix.any fun e => e.2.2
  let rPal := tps.any (·.pal) || groups.any (·.2)
  let colliders := (opaquePix.filter fun e => e.1.spr.coll).map fun e => e.1.spr.idx
  let ss := match colliders with
    | a :: b :: _ => if tb collCtrl 4 then some ⟨x, false, a, b⟩ else none
    | _ => none
  let hit := tps.zipIdx.find? fun e => e.1.col.isSome && tb collCtrl e.2
  let sp := match colliders, hit with
    | a :: _, some e => some ⟨x, true, a, e.2⟩
    | _, _ => none
  { src := tps.map (·.col) ++ groups.map (·.1),
    vst := rTp + 16 * b2n rSpr + 32 * b2n rPal, ss, sp }

/-- One visible line of the eight sources and of the sprite status that its status point publishes (R152). -/
structure LineVideo where
  src       : List (List (Option Nat))
  vidStatus : Nat
  sprStatus : Nat
  lineStat  : Nat
  lineFlags : Nat
  coll      : Option Collision
  sprEn     : Bool
  deriving DecidableEq, Repr

/-- The line L of width `width` from the registers `rg` (by window offset) and VRAM (R121 to R155). -/
def renderLine (rd : Nat → Byte) (bad : Nat → Bool) (rg : Nat → Nat) (hs vs : Nat → Nat) (width L : Nat) : LineVideo :=
  let palB := rg 0x2040
  let planes := (List.range 4).map fun n =>
    ({ ctrl := rg (0x2080 + 16 * n), mapB := rg (0x2084 + 16 * n), patB := rg (0x2088 + 16 * n),
       hs := hs n, vs := vs n } : PlaneCfg)
  let ctrl := rg 0x2100
  let en := tb ctrl 0
  let walk : SprWalk := if en then
      sprEval rd bad (rg 0x2104) (bits ctrl 14 8) (16 * bits ctrl 22 16) width L
    else {}
  let cc := if en then rg 0x210C else 0
  let cols := (List.range width).map fun x => columnOut rd bad palB (rg 0x2108) cc planes walk.sel L x
  let ss := cols.findSome? (·.ss)
  let sp := cols.findSome? (·.sp)
  let coll := match ss, sp with
    | some a, some b => if b.x < a.x then some b else some a
    | some a, none => some a
    | none, b => b
  let anyC := ss.isSome || sp.isSome
  { src := (List.range 8).map fun s => cols.map fun c => (c.src.getD s none),
    vidStatus := (cols.foldl (fun a c => a ||| c.vst) 0) ||| (16 * b2n walk.range),
    sprStatus := b2n walk.ovfCount + 2 * b2n walk.ovfPix + 4 * b2n ss.isSome + 8 * b2n sp.isSome,
    lineStat := L * 2 ^ 22 + walk.count * 2 ^ 14 + walk.used,
    lineFlags := 1024 * b2n anyC + 512 * b2n walk.ovfPix + 256 * b2n walk.ovfCount + walk.first,
    coll, sprEn := en }

end Sys2Proof.Machine
end

