-- ==== Sys2Proof/Machine/Cue.lean ====
section
/-! DEFINITION. The cue unit (05_cue_lists_raster.md): the walk of the cue lists at a line's state point, the per-line
scroll tables, and the windows that clip the eight sources. -/
namespace Sys2Proof.Machine

/-- The legal cue targets (R163); the argument is TARGET, the register lies at window offset 0x2000 + 4 * TARGET. -/
def cueTargetOk (t : Nat) : Bool :=
  t == 0x010 || (decide (0x020 ≤ t) && decide (t ≤ 0x02F)) || (decide (0x040 ≤ t) && decide (t ≤ 0x043))
    || (decide (0x20C ≤ t) && decide (t ≤ 0x212))

/-- One write of the cue unit: window offset, byte enables, value (R162). -/
structure CueWrite where
  off    : Nat
  byteEn : Nat
  value  : Nat
  deriving DecidableEq, Repr

/-- The walk of one line so far (R165). `flags` are the bits of CUE_STATUS (R170). -/
structure CueWalk where
  examined : Nat := 0
  applied  : Nat := 0
  cursors  : List Nat
  writes   : List CueWrite := []
  flags    : Nat := 0
  stopped  : Bool := false
  deriving DecidableEq, Repr

/-- The walk of list `i` at line L; the fuel covers the 64 entries that one line may examine (R165). -/
def cueList (rd : Nat → Byte) (bad : Nat → Bool) (base L i : Nat) : Nat → CueWalk → CueWalk
  | 0, k => k
  | fuel + 1, k =>
    let cur := k.cursors.getD i 0
    if k.stopped || decide (1024 ≤ cur) then k else
    let a := base * 2048 + 8 * cur
    let e := vramFetchN rd bad 8 a
    let k := if bad a then { k with flags := k.flags ||| 8 } else k
    let line := bits e 61 52
    if tb e 63 || decide (L < line) then k
    else if k.examined = 64 || k.applied = 32 then { k with flags := k.flags ||| 4, stopped := true }
    else
      let k := { k with examined := k.examined + 1, cursors := k.cursors.set i (cur + 1) }
      let t := bits e 49 40
      if line < L then cueList rd bad base L i fuel { k with flags := k.flags ||| 2 }
      else if !cueTargetOk t then cueList rd bad base L i fuel { k with flags := k.flags ||| 1 }
      else cueList rd bad base L i fuel
        { k with writes := k.writes ++ [⟨0x2000 + 4 * t, bits e 35 32, bits e 31 0⟩], applied := k.applied + 1 }

/-- The walk of the enabled lists 0 to 3 at line L (R165), from the frame's copies of LIST_EN and the bases (R164). -/
def cueWalk (rd : Nat → Byte) (bad : Nat → Bool) (en : Nat) (bases cursors : List Nat) (L : Nat) : CueWalk :=
  loop 4 (fun i k => if tb en i then cueList rd bad (bases.getD i 0) L i 66 k else k) { cursors }

/-- The scroll-table entry of a plane on a visible line: its value and whether its fetch met R124 (R173). -/
def scrollEntry (rd : Nat → Byte) (bad : Nat → Bool) (cfg L : Nat) : Nat × Bool :=
  let a := bits cfg 15 0 * 2048 + 4 * ((L + bits cfg 25 16) % 1024)
  (vramFetchN rd bad 4 a, bad a)

/-- A plane fetches its scroll table when MODE is not 0 and the plane is enabled (R173). -/
def scrollOn (cfg ctrl : Nat) : Bool := bits cfg 31 30 ≠ 0 && tb ctrl 0

/-- The effective HSCROLL and VSCROLL of a plane on a visible line (R173). -/
def effScroll (rd : Nat → Byte) (bad : Nat → Bool) (cfg ctrl scroll L : Nat) : Nat × Nat :=
  let h := bits scroll 9 0
  let v := bits scroll 25 16
  if scrollOn cfg ctrl then
    let e := (scrollEntry rd bad cfg L).1
    let pick (on : Bool) (reg tab : Nat) : Nat :=
      if on then (if tb cfg 29 then (reg + tab) % 1024 else tab) else reg
    (pick (tb cfg 30) h (bits e 9 0), pick (tb cfg 31) v (bits e 25 16))
  else (h, v)

/-- Whether any enabled plane's scroll-table fetch of the line is at or above the quota (R170, R173). -/
def scrollRange (rd : Nat → Byte) (bad : Nat → Bool) (rg : Nat → Nat) (L : Nat) : Bool :=
  (List.range 4).any fun n =>
    let cfg := rg (0x2830 + 4 * n)
    scrollOn cfg (rg (0x2080 + 16 * n)) && (scrollEntry rd bad cfg L).2

/-- Whether screen column x lies inside a window register (R176). -/
def inWindow (win x : Nat) : Bool := tb win 31 && decide (bits win 9 0 ≤ x) && decide (x ≤ bits win 25 16)

/-- Whether source s is drawn at column x under the windows and the mask (R176). -/
def winShows (win0 win1 mask s x : Nat) : Bool :=
  let s0 := tb mask s
  let s1 := tb mask (8 + s)
  if !s0 && !s1 then true
  else
    let inside := (s0 && inWindow win0 x) || (s1 && inWindow win1 x)
    inside != tb mask (16 + s)

/-- The source outputs of a line after window clipping (R177). -/
def clipLine (win0 win1 mask : Nat) (src : List (List (Option Nat))) : List (List (Option Nat)) :=
  src.zipIdx.map fun (row, s) => row.zipIdx.map fun (c, x) => if winShows win0 win1 mask s x then c else none

/-- One visible line of the eight sources with scroll tables and windows applied (R141, R173, R177). -/
def videoLine (rd : Nat → Byte) (bad : Nat → Bool) (rg : Nat → Nat) (width L : Nat) : LineVideo :=
  let eff n := effScroll rd bad (rg (0x2830 + 4 * n)) (rg (0x2080 + 16 * n)) (rg (0x208C + 16 * n)) L
  let v := renderLine rd bad rg (fun n => (eff n).1) (fun n => (eff n).2) width L
  { v with src := clipLine (rg 0x2840) (rg 0x2844) (rg 0x2848) v.src }

end Sys2Proof.Machine
end

