-- ==== Sys2Proof/Machine/Compose.lean ====
section
/-! DEFINITION. The composer (06_composition.md): layers, order, blending, the scaled video layers, the capture surface,
Flash Mute attenuation and measurement (R261 to R265), the Bell merge and its CRC, and the tick pixel. -/
namespace Sys2Proof.Machine

/-- A pixel as alpha and three channels. -/
structure Argb where
  a : Nat
  r : Nat
  g : Nat
  b : Nat
  deriving DecidableEq, Repr

/-- A 24-bit colour with an alpha. -/
def argbOf (a rgb : Nat) : Argb := ⟨a, bits rgb 23 16, bits rgb 15 8, bits rgb 7 0⟩
/-- The 24-bit colour of a pixel. -/
def Argb.rgb (p : Argb) : Nat := p.r * 65536 + p.g * 256 + p.b

/-- Channel expansion (R193). -/
def exp5 (c : Nat) : Nat := (c <<< 3) ||| (c >>> 2)
/-- Channel expansion of a 6-bit value (R193). -/
def exp6 (c : Nat) : Nat := (c <<< 2) ||| (c >>> 4)

/-- Bytes per pixel of an uncompressed format (R193). -/
def fmtBytes (fmt : Nat) : Nat := if fmt < 3 then 2 else 4

/-- A pixel word expanded to 8-bit channels (R193). -/
def expandPixel (fmt w : Nat) : Argb :=
  match fmt with
  | 0 => ⟨255, exp5 (bits w 15 11), exp6 (bits w 10 5), exp5 (bits w 4 0)⟩
  | 1 => ⟨255 * bit w 15, exp5 (bits w 14 10), exp5 (bits w 9 5), exp5 (bits w 4 0)⟩
  | 2 => ⟨17 * bits w 15 12, 17 * bits w 11 8, 17 * bits w 7 4, 17 * bits w 3 0⟩
  | 3 => argbOf 255 w
  | _ => argbOf (bits w 31 24) w

/-- Pixels of one surface row with the two error flags of a video layer (R190). -/
structure RowOut where
  px    : List Argb
  range : Bool
  derr  : Bool
  deriving DecidableEq, Repr

/-- Columns `x0` to `x0 + n - 1` of row `sy` of an uncompressed surface (R194). -/
def plainRow (rd : Nat → Byte) (bad : Nat → Bool) (fmt surf x0 n sy : Nat) : RowOut :=
  let bpp := fmtBytes fmt
  let a0 := bits surf 15 0 * 2048 + sy * (bits surf 27 16 * 16)
  let cells := (List.range n).map fun i =>
    let a := a0 + (x0 + i) * bpp
    if bad (a + bpp - 1) then (⟨0, 0, 0, 0⟩, true) else (expandPixel fmt (vramFetchN rd bad bpp a), false)
  ⟨cells.map (·.1), cells.any (·.2), false⟩

/-- Columns `x0` to `x0 + n - 1` of row `sy` of a compressed surface (R244). A pixel of a failed block or outside the surface has A 0;
its R, G and B, which R194 does not give, are 0 (DESIGN CHOICE, log entry 66). -/
def packedRow (rd : Nat → Byte) (bad : Nat → Bool) (fmt surf x0 n sy : Nat) : RowOut :=
  let base := bits surf 15 0 * 2048
  let fb := fun o => vramFetch rd bad (base + o)
  let badO := fun o => bad (base + o)
  let blank := List.replicate n (⟨0, 0, 0, 0⟩ : Argb)
  match surfHeader fb with
  | none => ⟨blank, spanBad badO 0 16, true⟩
  | some hd =>
    if hd.height ≤ sy then ⟨blank, spanBad badO 0 16, true⟩ else
    let bs := decodeRow fb badO hd (sy / 4)
    let cells := (List.range n).map fun i =>
      let x := x0 + i
      if hd.width ≤ x then ((⟨0, 0, 0, 0⟩ : Argb), false, true) else
      match rowPixel bs x sy with
      | (none, r) => (⟨0, 0, 0, 0⟩, r, true)
      | (some v, true) => (argbOf 0 v, true, false)
      | (some v, false) => (argbOf (if fmt = 5 || hd.q = 3 then 255 else bits v 31 24) v, false, false)
    ⟨cells.map (·.1), tableBad badO hd (sy / 4) || cells.any (·.2.1), cells.any (·.2.2)⟩

/-- Average D neighbouring channel values (R195). -/
def avgOf (d : Nat) (l : List Nat) : Nat := (l.foldl (· + ·) 0 + d / 2) / d

/-- The decimator: `wd` pixels of D columns each (R195). -/
def decimate (d wd : Nat) (px : List Argb) : List Argb :=
  if d = 1 then px.take wd else
  (List.range wd).map fun k =>
    let g := (px.drop (k * d)).take d
    ⟨avgOf d (g.map (·.a)), avgOf d (g.map (·.r)), avgOf d (g.map (·.g)), avgOf d (g.map (·.b))⟩

/-- The decimated width before and after the line buffer's clamp (R195). -/
def decimWidth (srcW d : Nat) : Nat × Bool := (min (srcW / d) 2048, decide (2048 < srcW / d))

/-- One channel of the bilinear filter (R196). -/
def bilin (p00 p10 p01 p11 fx fy : Nat) : Nat :=
  let h0 := (p00 * (256 - fx) + p10 * fx + 128) >>> 8
  let h1 := (p01 * (256 - fx) + p11 * fx + 128) >>> 8
  (h0 * (256 - fy) + h1 * fy + 128) >>> 8

/-- One line of a video layer: its pixels by screen column (none outside the rectangle), RANGE_V and DECODE_ERR. -/
structure VLine where
  px    : List (Option Argb)
  range : Bool
  derr  : Bool
  deriving DecidableEq, Repr

/-- Line L of video layer n across `width` columns, from the live composer copies (R183, R192 to R196). A layer without a visible column
on the line fetches no row: R203 is silent on it (DESIGN CHOICE, log entry 66). -/
def videoLayerLine (rd : Nat → Byte) (bad : Nat → Bool) (lv : Nat → Nat) (n width L : Nat) : VLine :=
  let o := 0x3100 + 0x20 * n
  let ctrl := lv o
  let x0 := sext 12 (bits (lv (o + 4)) 11 0)
  let y0 := sext 12 (bits (lv (o + 4)) 27 16)
  let w := bits (lv (o + 8)) 10 0
  let h := bits (lv (o + 8)) 26 16
  let surf := lv (o + 12)
  let srcX := bits (lv (o + 16)) 12 0
  let srcY := bits (lv (o + 16)) 28 16
  let srcW := bits (lv (o + 20)) 12 0
  let srcH := bits (lv (o + 20)) 27 16
  let d := 1 <<< bits ctrl 17 16
  let wd := (decimWidth srcW d).1
  let none' : VLine := ⟨List.replicate width none, false, false⟩
  let seen := decide (x0 < width) && decide (0 < x0 + w)
  if (L : Int) < y0 || y0 + h ≤ (L : Int) || w = 0 || wd = 0 || !seen then none' else
  let j := ((L : Int) - y0).toNat
  let sx := (wd <<< 16) / w
  let sy := (srcH <<< 16) / h
  let v := j * sy + sy / 2
  let fmt := bits ctrl 15 12
  let row (r : Nat) : RowOut :=
    let q := if fmt < 5 then plainRow rd bad fmt surf srcX (wd * d) r else packedRow rd bad fmt surf srcX (wd * d) r
    { q with px := decimate d wd q.px }
  let z : Argb := ⟨0, 0, 0, 0⟩
  let place (f : Nat → Argb) : List (Option Argb) := (List.range width).map fun (x : Nat) =>
    if (x : Int) < x0 || x0 + w ≤ (x : Int) then none else some (f ((x : Int) - x0).toNat)
  if tb ctrl 18 then
    let v1 := v - 32768
    let r0 := srcY + v1 >>> 16
    let r1 := min (r0 + 1) (srcY + srcH - 1)
    let fy := (v1 >>> 8) % 256
    let a := row r0
    let b := row r1
    ⟨place fun i =>
        let u1 := (i * sx + sx / 2) - 32768
        let c0 := u1 >>> 16
        let c1 := min (c0 + 1) (wd - 1)
        let fx := (u1 >>> 8) % 256
        let p := a.px.getD c0 z; let q := a.px.getD c1 z
        let s := b.px.getD c0 z; let t := b.px.getD c1 z
        ⟨bilin p.a q.a s.a t.a fx fy, bilin p.r q.r s.r t.r fx fy, bilin p.g q.g s.g t.g fx fy,
         bilin p.b q.b s.b t.b fx fy⟩,
      a.range || b.range, a.derr || b.derr⟩
  else
    let a := row (srcY + v >>> 16)
    ⟨place fun i => a.px.getD ((i * sx + sx / 2) >>> 16) z, a.range, a.derr⟩

/-- One channel under a blend mode with scaled alpha (R186). -/
def blendCh (mode a2 p c : Nat) : Nat :=
  match mode with
  | 1 => (p * a2 + c * (256 - a2) + 128) >>> 8
  | 2 => min 255 (c + ((p * a2) >>> 8))
  | _ => c - ((p * a2) >>> 8)

/-- One layer's pixel over the colour beneath (R186). -/
def blendPixel (mode alpha : Nat) (p : Argb) (c : Nat) : Nat :=
  if mode = 0 then (if 128 ≤ p.a then p.rgb else c)
  else
    let a := (p.a * (alpha + alpha / 128)) >>> 8
    if a = 0 then c
    else
      let a2 := a + a / 128
      let k := argbOf 0 c
      (⟨0, blendCh mode a2 p.r k.r, blendCh mode a2 p.g k.g, blendCh mode a2 p.b k.b⟩ : Argb).rgb

/-- The layer at depth d (R184, R185). -/
def layerAt (lv : Nat → Nat) (d : Nat) : Nat :=
  if tb (lv 0x3000) 1 then bits (lv 0x3008) (3 * d + 2) (3 * d) else d

/-- A graphic layer's line: its source inside its rectangle (R183). -/
def graphicLine (lv : Nat → Nat) (src : List (List (Option Nat))) (n width L : Nat) : List (Option Argb) :=
  let o := 0x3100 + 0x20 * n
  let x0 := sext 12 (bits (lv (o + 4)) 11 0)
  let y0 := sext 12 (bits (lv (o + 4)) 27 16)
  let w := bits (lv (o + 8)) 10 0
  let h := bits (lv (o + 8)) 26 16
  let row := src.getD (bits (lv o) 6 4) []
  if (L : Int) < y0 || y0 + h ≤ (L : Int) then List.replicate width none
  else row.zipIdx.map fun (c, x) =>
    if (x : Int) < x0 || x0 + w ≤ (x : Int) then none else c.map (argbOf 255)

/-- Whether layer n is a video layer (R180). -/
def isVideoLayer (lv : Nat → Nat) (n : Nat) : Bool := tb (lv 0x3000) 0 && decide (6 ≤ n)

/-- The instance picture of one line, with RANGE_V and DECODE_ERR as bits of CMP_STATUS (R186, R190). -/
structure PictureLine where
  px     : List Nat
  status : Nat
  deriving DecidableEq, Repr

/-- Composition of one visible line (R183 to R186). -/
def composeLine (rd : Nat → Byte) (bad : Nat → Bool) (lv : Nat → Nat) (src : List (List (Option Nat))) (width L : Nat) :
    PictureLine :=
  let bg := bits (lv 0x3004) 23 0
  loop 8 (fun d acc =>
    let n := layerAt lv d
    let ctrl := lv (0x3100 + 0x20 * n)
    if !tb ctrl 0 then acc
    else
      let (row, st) := if isVideoLayer lv n then
          let v := videoLayerLine rd bad lv n width L
          (v.px, b2n v.range <<< (n - 6 + 2) ||| b2n v.derr <<< (n - 6 + 4))
        else (graphicLine lv src n width L, 0)
      { px := acc.px.zipIdx.map fun (c, x) =>
          match row.getD x none with
          | none => c
          | some p => if p.a = 0 then c else blendPixel (bits ctrl 21 20) (bits ctrl 31 24) p c,
        status := acc.status ||| st })
    ⟨List.replicate width bg, 0⟩

/-- SCL_CLAMPED bits of the settings in force: a video layer whose decimated width exceeds the line buffer (R195).
R191 is silent on a layer whose EN is 0, which sets none here (DESIGN CHOICE, log entry 66). -/
def sclClamped (lv : Nat → Nat) : Nat :=
  if tb (lv 0x3000) 0 then
    loop 2 (fun i a =>
      let o := 0x3100 + 0x20 * (6 + i)
      if tb (lv o) 0 && (decimWidth (bits (lv (o + 20)) 12 0) (1 <<< bits (lv o) 17 16)).2 then a ||| (1 <<< i) else a) 0
  else 0

/-- A capture write: VRAM offset and bytes (R200). -/
structure CapWrite where
  addr : Nat
  data : List Byte
  deriving DecidableEq, Repr

/-- The capture writes of one line of the instance picture (R199, R200). -/
def captureLine (ctrl surf L : Nat) (px : List Nat) : List CapWrite :=
  let k := 1 <<< bits ctrl 3 2
  if !tb ctrl 0 || L % k ≠ 0 then [] else
  let half := tb ctrl 1
  let b := if half then 2 else 4
  let a0 := bits surf 15 0 * 2048 + (L / k) * (bits surf 27 16 * 16)
  (px.zipIdx.filter fun e => e.2 % k = 0).map fun (c, x) =>
    let w := if half then bits c 23 19 * 2048 + bits c 15 10 * 32 + bits c 7 3 else c
    ⟨a0 + (x / k) * b, leBytes b w⟩

/-- Flash Mute attenuation of one channelled colour (R265). -/
def attenuate (gain c : Nat) : Nat :=
  let k := argbOf 0 c
  (⟨0, (k.r * gain) >>> 8, (k.g * gain) >>> 8, (k.b * gain) >>> 8⟩ : Argb).rgb

/-- Bytes from one Bell surface row to the next (R207). -/
def bellPitch (w bpp : Nat) : Nat := 4 * cdiv (w * bpp) 32

/-- Bits per pixel of a BPP code (R204). -/
def bellBpp (code : Nat) : Nat := 1 <<< code

/-- The active Bell settings of an instance's frame. -/
structure BellCfg where
  ctrl   : Nat := 0
  pos    : Nat := 0
  size   : Nat := 0
  expect : Nat := 0
  pal    : List Nat := List.replicate 16 0
  deriving DecidableEq, Repr

/-- The scale factor S (R204). -/
def BellCfg.scale (c : BellCfg) : Nat := bits c.ctrl 5 4 + 1
/-- Surface width (R205). -/
def BellCfg.w (c : BellCfg) : Nat := bits c.size 9 0
/-- Surface height (R205). -/
def BellCfg.h (c : BellCfg) : Nat := bits c.size 25 16

/-- The region origin (R209). -/
def bellOrigin (c : BellCfg) (vw vh : Nat) : Int × Int :=
  let an := bits c.ctrl 9 8
  let ox : Int := bits c.pos 9 0
  let oy : Int := bits c.pos 25 16
  ((if an % 2 = 0 then ox else (vw : Int) - ox - (c.w * c.scale : Nat)),
   (if an < 2 then oy else (vh : Int) - oy - (c.h * c.scale : Nat)))

/-- Whether the region lies wholly within the visible area (R209). -/
def bellFits (c : BellCfg) (vw vh : Nat) : Bool :=
  let (x0, y0) := bellOrigin c vw vh
  decide (0 ≤ x0) && decide (0 ≤ y0) && decide (x0 + (c.w * c.scale : Nat) ≤ vw) && decide (y0 + (c.h * c.scale : Nat) ≤ vh)

/-- The palette entry of Bell surface pixel (sx, sy), from the bank's bytes (R207). -/
def bellEntry (bank : Nat → Byte) (c : BellCfg) (sx sy : Nat) : Nat :=
  let bpp := bellBpp (bits c.ctrl 3 2)
  let by' := (bank (sy * bellPitch c.w bpp + sx * bpp / 8)).toNat
  c.pal.getD ((by' >>> (sx * bpp % 8)) % 2 ^ bpp) 0

/-- The Bell merge of one line (R209). -/
def bellLine (bank : Nat → Byte) (c : BellCfg) (vw vh L : Nat) (px : List Nat) : List Nat :=
  if !tb c.ctrl 0 then px else
  let (x0, y0) := bellOrigin c vw vh
  let s := c.scale
  if (L : Int) < y0 || y0 + (c.h * s : Nat) ≤ (L : Int) then px else
  let sy := ((L : Int) - y0).toNat / s
  px.zipIdx.map fun (p, x) =>
    if (x : Int) < x0 || x0 + (c.w * s : Nat) ≤ (x : Int) then p
    else
      let e := bellEntry bank c (((x : Int) - x0).toNat / s) sy
      let a := bits e 31 24
      if a = 0 then p
      else
        let a2 := a + a / 128
        let k := argbOf 0 p; let q := argbOf 0 e
        (⟨0, blendCh 1 a2 q.r k.r, blendCh 1 a2 q.g k.g, blendCh 1 a2 q.b k.b⟩ : Argb).rgb

/-- The bytes the Bell CRC runs over: the palette entry of every region pixel in raster order (R210). -/
def bellBytes (bank : Nat → Byte) (c : BellCfg) : List Byte :=
  let s := c.scale
  ((List.range (c.h * s)).map fun y =>
    ((List.range (c.w * s)).map fun x => leBytes 4 (bellEntry bank c (x / s) (y / s))).flatten).flatten

/-- The CRC that the merge stage computes over the region (R210). -/
def bellCrc (bank : Nat → Byte) (c : BellCfg) : Nat := crc32 (bellBytes bank c)

/-- The tick pixel: the last visible pixel's bit 0 of blue takes F mod 2 (R201). -/
def tickLine (frame vw vh L : Nat) (px : List Nat) : List Nat :=
  if L + 1 = vh then px.zipIdx.map fun (c, x) => if x + 1 = vw then c / 2 * 2 + frame % 2 else c else px

/-- L of R262: round(1,000 * (Y / 255)^2.2) for Y from 0 to 255. -/
def flashLum : List Nat := 
  [0, 0, 0, 0, 0, 0, 0, 0, 0, 1, 1, 1, 1, 1, 2, 2] ++
  [2, 3, 3, 3, 4, 4, 5, 5, 6, 6, 7, 7, 8, 8, 9, 10] ++
  [10, 11, 12, 13, 13, 14, 15, 16, 17, 18, 19, 20, 21, 22, 23, 24] ++
  [25, 27, 28, 29, 30, 32, 33, 34, 36, 37, 38, 40, 41, 43, 45, 46] ++
  [48, 49, 51, 53, 55, 56, 58, 60, 62, 64, 66, 68, 70, 72, 74, 76] ++
  [78, 80, 82, 85, 87, 89, 92, 94, 96, 99, 101, 104, 106, 109, 111, 114] ++
  [117, 119, 122, 125, 128, 130, 133, 136, 139, 142, 145, 148, 151, 154, 157, 160] ++
  [164, 167, 170, 173, 177, 180, 184, 187, 190, 194, 198, 201, 205, 208, 212, 216] ++
  [220, 223, 227, 231, 235, 239, 243, 247, 251, 255, 259, 263, 267, 272, 276, 280] ++
  [284, 289, 293, 298, 302, 307, 311, 316, 320, 325, 330, 334, 339, 344, 349, 354] ++
  [359, 364, 369, 374, 379, 384, 389, 394, 399, 405, 410, 415, 421, 426, 431, 437] ++
  [442, 448, 453, 459, 465, 470, 476, 482, 488, 494, 500, 505, 511, 517, 523, 530] ++
  [536, 542, 548, 554, 560, 567, 573, 580, 586, 592, 599, 605, 612, 619, 625, 632] ++
  [639, 646, 652, 659, 666, 673, 680, 687, 694, 701, 708, 715, 723, 730, 737, 745] ++
  [752, 759, 767, 774, 782, 789, 797, 805, 812, 820, 828, 836, 843, 851, 859, 867] ++
  [875, 883, 891, 899, 908, 916, 924, 932, 941, 949, 957, 966, 974, 983, 991, 1000]

/-- The luma share of one pixel (R262). -/
def pixelLum (c : Nat) : Nat :=
  let k := argbOf 0 c
  flashLum.getD ((54 * k.r + 183 * k.g + 19 * k.b + 128) >>> 8) 0

/-- Add one line of the instance picture to the 144 cell sums (R261, R262). -/
def flashAdd (sums : List Nat) (vw vh L : Nat) (px : List Nat) : List Nat :=
  let j := ((List.range 9).find? fun j => decide (j * vh / 9 ≤ L) && decide (L < (j + 1) * vh / 9)).getD 8
  let lum := px.map pixelLum
  sums.zipIdx.map fun (s, cell) =>
    if cell / 16 = j then
      let i := cell % 16
      let a := i * vw / 16
      s + ((lum.drop a).take ((i + 1) * vw / 16 - a)).foldl (· + ·) 0
    else s

/-- The pixel count of a cell (R261). -/
def flashCount (vw vh cell : Nat) : Nat :=
  let i := cell % 16
  let j := cell / 16
  ((i + 1) * vw / 16 - i * vw / 16) * ((j + 1) * vh / 9 - j * vh / 9)

/-- Extreme and direction of one cell, and the frames of its recent transitions (R263, R264). -/
structure FlashCell where
  ext   : Nat := 0
  dir   : Nat := 0
  trans : List Nat := []
  deriving DecidableEq, Repr

/-- One frame's measure of one cell: DIR codes 0 NONE, 1 UP, 2 DOWN (R263). The transitions kept are those of the W frames that end
with this one (R264). -/
def flashStep (frame w v : Nat) (c : FlashCell) : FlashCell :=
  let up := decide (c.ext + 100 ≤ v) && decide (c.ext < 800)
  let down := decide (v + 100 ≤ c.ext) && decide (v < 800)
  let kept := c.trans.filter fun t => decide (frame < t + w) && decide (t < frame)
  let rec' (d : Nat) : FlashCell := ⟨v, d, kept ++ [frame]⟩
  match c.dir with
  | 1 => if c.ext < v then { c with ext := v, trans := kept } else if down then rec' 2 else { c with trans := kept }
  | 2 => if v < c.ext then { c with ext := v, trans := kept } else if up then rec' 1 else { c with trans := kept }
  | _ => if up then rec' 1 else if down then rec' 2 else { c with trans := kept }

/-- P and C of a Flash Mute level (R73). -/
def flashLevel (lv : Nat) : Nat × Nat :=
  match lv with
  | 0 => (3, 36) | 1 => (3, 29) | 2 => (3, 22) | 3 => (2, 22) | 4 => (2, 15)
  | 5 => (2, 9) | 6 => (1, 9) | 7 => (1, 4) | _ => (0, 4)

/-- The trigger of a frame (R264). -/
def flashTrigger (lv : Nat) (cells : List FlashCell) : Bool :=
  let (p, c) := flashLevel lv
  decide (c ≤ (cells.filter fun k => decide (p < k.trans.length / 2)).length)

end Sys2Proof.Machine
end

