-- ==== Sys2Proof/Config.lean ====
section
/-! DEFINITION. What the spec leaves open: constants without a body, which no proof can see through. Each is named in
the assumption log. -/
namespace Sys2Proof.Config

/-- A free 32-bit value, the k-th that the run has drawn (the counter stands in State). -/
opaque freeWord : Nat → Word

/-- The digest of the Kwaham root key in mask ROM (R43); the manual gives no value. -/
opaque rootKeyDigest : List Byte

/-- ARG of the log entries of a sealed commit (R77 names the fuse KIND, and R70 gives a seal none). -/
opaque sealLogArg : Nat

/-- The CRC-64 of a block of host memory that no resident leaf has held (R439), by its number and the Extent Table entry: the manual
does not say how the device learns it. -/
opaque hostBlockCrc : Nat → Nat → Nat

/-- The cache frame in which a leaf of an extent lies (R416, R424), by number; the manual does not say how frames are chosen. -/
opaque leafFrame : Nat → Nat → Nat

/-- What the ERR registers and an error record give as the address of a word of the Vault (false) or of the Extent Table SRAM (true):
the manual gives those words no address (R411, R536). -/
opaque sramAddr : Bool → Nat → Nat

/-- The Vendor ID assigned to Kwaham (R464); the manual gives no number. -/
opaque vendorId : Nat

/-- The level that the management or safety firmware sends through an output function of the pins at a wall time (R546, R549): the
manual gives no console, sensor or fan traffic. -/
opaque pinSent : Nat → Nat → Bool

/-- The count of the PCIE PLL's output in a window of 2 us by the negotiated rate, and of the reference against the fault oscillator
(R496, R523): the manual gives neither frequency exactly. -/
opaque pcieCount : Nat → Nat
opaque referenceCount : Nat

/-- The JEP106 code assigned to Kwaham, which IDCODE carries (R554); the manual gives no number. -/
opaque jep106 : Nat

end Sys2Proof.Config
end

