-- ==== Sys2Proof/Machine/Sha.lean ====
section
/-! DEFINITION. The published standards that R42 and R43 rest on: SHA-384 (FIPS 180-4) and the verification of an ECDSA
signature on P-384 (FIPS 186-5). PRESUMED: taken from those standards, which the manual names and does not restate. -/
namespace Sys2Proof.Machine

/-- The round constants of SHA-384. -/
def shaK : List Nat :=
  [0x428A2F98D728AE22, 0x7137449123EF65CD, 0xB5C0FBCFEC4D3B2F, 0xE9B5DBA58189DBBC, 0x3956C25BF348B538,
   0x59F111F1B605D019, 0x923F82A4AF194F9B, 0xAB1C5ED5DA6D8118, 0xD807AA98A3030242, 0x12835B0145706FBE,
   0x243185BE4EE4B28C, 0x550C7DC3D5FFB4E2, 0x72BE5D74F27B896F, 0x80DEB1FE3B1696B1, 0x9BDC06A725C71235,
   0xC19BF174CF692694, 0xE49B69C19EF14AD2, 0xEFBE4786384F25E3, 0x0FC19DC68B8CD5B5, 0x240CA1CC77AC9C65] ++
  [0x2DE92C6F592B0275, 0x4A7484AA6EA6E483, 0x5CB0A9DCBD41FBD4, 0x76F988DA831153B5, 0x983E5152EE66DFAB,
   0xA831C66D2DB43210, 0xB00327C898FB213F, 0xBF597FC7BEEF0EE4, 0xC6E00BF33DA88FC2, 0xD5A79147930AA725,
   0x06CA6351E003826F, 0x142929670A0E6E70, 0x27B70A8546D22FFC, 0x2E1B21385C26C926, 0x4D2C6DFC5AC42AED,
   0x53380D139D95B3DF, 0x650A73548BAF63DE, 0x766A0ABB3C77B2A8, 0x81C2C92E47EDAEE6, 0x92722C851482353B] ++
  [0xA2BFE8A14CF10364, 0xA81A664BBC423001, 0xC24B8B70D0F89791, 0xC76C51A30654BE30, 0xD192E819D6EF5218,
   0xD69906245565A910, 0xF40E35855771202A, 0x106AA07032BBD1B8, 0x19A4C116B8D2D0C8, 0x1E376C085141AB53,
   0x2748774CDF8EEB99, 0x34B0BCB5E19B48A8, 0x391C0CB3C5C95A63, 0x4ED8AA4AE3418ACB, 0x5B9CCA4F7763E373,
   0x682E6FF3D6B2B8A3, 0x748F82EE5DEFB2FC, 0x78A5636F43172F60, 0x84C87814A1F0AB72, 0x8CC702081A6439EC] ++
  [0x90BEFFFA23631E28, 0xA4506CEBDE82BDE9, 0xBEF9A3F7B2C67915, 0xC67178F2E372532B, 0xCA273ECEEA26619C,
   0xD186B8C721C0C207, 0xEADA7DD6CDE0EB1E, 0xF57D4F7FEE6ED178, 0x06F067AA72176FBA, 0x0A637DC5A2C898A6,
   0x113F9804BEF90DAE, 0x1B710B35131C471B, 0x28DB77F523047D84, 0x32CAAB7B40C72493, 0x3C9EBE0A15C9BEBC,
   0x431D67C49C100D4C, 0x4CC5D4BECB3E42B6, 0x597F299CFC657E2A, 0x5FCB6FAB3AD6FAEC, 0x6C44198C4A475817]

/-- The initial hash value of SHA-384. -/
def shaInit : List Nat :=
  [0xCBBB9D5DC1059ED8, 0x629A292A367CD507, 0x9159015A3070DD17, 0x152FECD8F70E5939,
   0x67332667FFC00B31, 0x8EB44A8768581511, 0xDB0C2E0D64F98FA7, 0x47B5481DBEFA4FA4]

def m64 (v : Nat) : Nat := v % 2 ^ 64
def ror64 (v n : Nat) : Nat := m64 ((v >>> n) ||| (v <<< (64 - n)))

/-- The padded message: a one bit, zeros, and the 128-bit length. -/
def shaPad (l : List Byte) : List Byte :=
  let n := l.length
  let z := (240 - (n + 1) % 128) % 128
  l ++ [0x80] ++ List.replicate z 0 ++ beBytes 16 (8 * n)

/-- The message schedule, newest word first. -/
def shaSchedule (blk : List Byte) : List Nat :=
  let w0 := (List.range 16).foldl (fun a i => beNat ((blk.drop (8 * i)).take 8) :: a) ([] : List Nat)
  let w := (List.range 64).foldl (fun (a : List Nat) _ =>
    let x15 := a.getD 14 0
    let x2 := a.getD 1 0
    let s0 := nxor (nxor (ror64 x15 1) (ror64 x15 8)) (x15 >>> 7)
    let s1 := nxor (nxor (ror64 x2 19) (ror64 x2 61)) (x2 >>> 6)
    m64 (a.getD 15 0 + s0 + a.getD 6 0 + s1) :: a) w0
  w.reverse

/-- One round of the compression function over the eight working variables. -/
def shaRound (h : List Nat) (kw : Nat × Nat) : List Nat :=
  match h with
  | [a, b, c, d, e, f, g, hh] =>
    let s1 := nxor (nxor (ror64 e 14) (ror64 e 18)) (ror64 e 41)
    let ch := nxor (e &&& f) ((2 ^ 64 - 1 - e) &&& g)
    let t1 := hh + s1 + ch + kw.1 + kw.2
    let s0 := nxor (nxor (ror64 a 28) (ror64 a 34)) (ror64 a 39)
    let maj := nxor (nxor (a &&& b) (a &&& c)) (b &&& c)
    [m64 (t1 + s0 + maj), a, b, c, m64 (d + t1), e, f, g]
  | _ => h

/-- One 128-byte block into the hash value. -/
def shaBlock (h : List Nat) (blk : List Byte) : List Nat :=
  let r := (List.zip shaK (shaSchedule blk)).foldl shaRound h
  List.zipWith (fun a b => m64 (a + b)) h r

/-- The whole message, `n` blocks of it. -/
def shaBlocks : Nat → List Nat → List Byte → List Nat
  | 0, h, _ => h
  | n + 1, h, l => shaBlocks n (shaBlock h (l.take 128)) (l.drop 128)

/-- SHA-384 of a byte list: 48 bytes. -/
def sha384 (l : List Byte) : List Byte :=
  let p := shaPad l
  ((shaBlocks (p.length / 128) shaInit p).take 6).flatMap (beBytes 8)

/-- The field prime of P-384. -/
def p384 : Nat := 2 ^ 384 - 2 ^ 128 - 2 ^ 96 + 2 ^ 32 - 1
/-- The order of the base point. -/
def n384 : Nat :=
  0xFFFFFFFFFFFFFFFFFFFFFFFFFFFFFFFFFFFFFFFFFFFFFFFFC7634D81F4372DDF581A0DB248B0A77AECEC196ACCC52973
/-- The curve coefficient b. -/
def b384 : Nat :=
  0xB3312FA7E23EE7E4988E056BE3F82D19181D9C6EFE8141120314088F5013875AC656398D8A2ED19D2A85C8EDD3EC2AEF
/-- The base point. -/
def g384 : Nat × Nat :=
  (0xAA87CA22BE8B05378EB1C71EF320AD746E1D3B628BA79B9859F741E082542A385502F25DBF55296C3A545E3872760AB7,
   0x3617DE4A96262C6F5D9E98BF9292DC29F8F41DBD289A147CE9DA3113B5F0B8C00A60B1CE1D7E819D7A431D7C90EA0E5F)

/-- Powers modulo m, by the bits of the exponent from the top. -/
def powMod (m b e w : Nat) : Nat :=
  (List.range w).foldl (fun a i => let s := a * a % m; if tb e (w - 1 - i) then s * b % m else s) 1

/-- The inverse modulo a prime. -/
def invMod (m a : Nat) : Nat := powMod m (a % m) (m - 2) 384

/-- A curve point: `none` is the point at infinity. -/
def ecAdd : Option (Nat × Nat) → Option (Nat × Nat) → Option (Nat × Nat)
  | none, q => q
  | p, none => p
  | some (x1, y1), some (x2, y2) =>
    let p := p384
    if x1 = x2 && (y1 + y2) % p = 0 then none else
    let l := if x1 = x2 then (3 * x1 * x1 + (p - 3)) % p * invMod p (2 * y1 % p) % p
             else (y2 + p - y1) % p * invMod p ((x2 + p - x1) % p) % p
    let x3 := (l * l + 2 * p - x1 - x2) % p
    some (x3, (l * ((x1 + p - x3) % p) + p - y1) % p)

/-- A multiple of a point. -/
def ecMul (k : Nat) (q : Option (Nat × Nat)) : Option (Nat × Nat) :=
  (List.range 384).foldl (fun a i => let d := ecAdd a a; if tb k (383 - i) then ecAdd d q else d) none

/-- A point of the curve, with both coordinates below the prime. -/
def onCurve (x y : Nat) : Bool :=
  decide (x < p384) && decide (y < p384) && y * y % p384 == (x * x * x + (p384 - 3) * x + b384) % p384

/-- ECDSA verification of R43: the key X then Y, the signature r then s, the digest as a big-endian number. -/
def ecdsaVerify (pub sig digest : List Byte) : Bool :=
  let x := beNat (pub.take 48)
  let y := beNat (pub.drop 48)
  let r := beNat (sig.take 48)
  let s := beNat (sig.drop 48)
  if r = 0 || s = 0 || n384 ≤ r || n384 ≤ s || !onCurve x y then false else
  let w := invMod n384 s
  match ecAdd (ecMul (beNat digest * w % n384) (some g384)) (ecMul (r * w % n384) (some (x, y))) with
  | none => false
  | some (vx, _) => vx % n384 == r

end Sys2Proof.Machine
end

