-- ==== Sys2Proof/Machine/Image.lean ====
section
/-! DEFINITION. The Serfer image (02_serfer_images.md): its layout and checks (R41 to R50, R300), the credit check of
phase 4 (R28, R33, R582), the fuse checks of phase 5 (R71), and admission (R33, R34, R61, R401), as functions of bytes. -/
namespace Sys2Proof.Machine

/-- A directory entry (R44), with its reserved bytes. -/
structure Sec where
  ty  : Nat
  ver : Nat
  off : Nat
  len : Nat
  rsv : Nat
  deriving DecidableEq, Repr

/-- The image as bytes, with its body (R41). -/
def bodySize (b : List Byte) : Nat := field b 8 4
def imgBody (b : List Byte) : List Byte := (b.drop 512).take (bodySize b)
def imgId (b : List Byte) : Nat := field b 0x10 8
def imgKey (b : List Byte) : Nat := field b 0x18 1
def imgMask (b : List Byte) : Nat := field b 0x19 1
def imgHash (b : List Byte) : List Byte := (b.drop 0x20).take 48
def imgPub (b : List Byte) : List Byte := (b.drop 0x50).take 96
def imgSig (b : List Byte) : List Byte := (b.drop 0xB0).take 96

/-- The directory (R44). -/
def imgDir (b : List Byte) : List Sec :=
  let body := imgBody b
  (List.range (field b 0x1A 2)).map fun i =>
    ⟨field body (16 * i) 2, field body (16 * i + 2) 2, field body (16 * i + 4) 4, field body (16 * i + 8) 4,
      field body (16 * i + 12) 4⟩

/-- The known section types; every known section has VERSION 1, and another VERSION makes it unknown (R44). -/
def secKnown (x : Sec) : Bool :=
  x.ver == 1 && [0x8001, 0x8002, 0x8003, 0x8004, 0x0005, 0x8006, 0x0007, 0x8008].contains x.ty

/-- The content of a section, if the image holds it. -/
def secData (b : List Byte) (ty : Nat) : Option (List Byte) :=
  ((imgDir b).find? fun x => secKnown x && x.ty == ty).map fun x => ((imgBody b).drop x.off).take x.len

def secOr (b : List Byte) (ty : Nat) : List Byte := (secData b ty).getD []

def rMalformed : Nat := 0x22

/-- Checks 1 to 3 of R41: 0 passes, else the result of R55. STEP is that of R11. -/
def checkHeader (b : List Byte) : Nat :=
  if field b 0 4 ≠ 0x52465253 || b.length < 4 then 0x20
  else if field b 0xC 2 ≠ 0x8512 || field b 0xE 1 ≠ 3 || 0 < field b 0xF 1 then 0x21
  else if field b 4 2 ≠ 1 || field b 6 2 ≠ 0x200 || bodySize b % 8 ≠ 0 || 507392 < bodySize b || imgId b = 0
    || (15 < imgKey b && imgKey b ≠ 0xFF) || 15 < imgMask b || field b 0x1A 2 = 0 || 32 < field b 0x1A 2
    || field b 0x1C 4 ≠ 0 || field b 0x110 240 ≠ 0 || b.length < 512 + bodySize b then rMalformed
  else 0

/-- Do two ranges share a byte? -/
def overlaps (a la b lb : Nat) : Bool := decide (0 < la) && decide (0 < lb) && decide (a < b + lb) && decide (b < a + la)

/-- Check 5 of R41: the directory, entry by entry (R44). DEDUCED: within one entry the layout is checked before the type, and a
reserved byte of the image must be 0 as one of the header must (R42). -/
def checkDir (b : List Byte) : Nat :=
  let dir := imgDir b
  let size := bodySize b
  let one (st : Nat × List Sec) (x : Sec) : Nat × List Sec :=
    if st.1 ≠ 0 then st else
    if x.rsv ≠ 0 || x.off % 8 ≠ 0 || size < x.off + x.len || overlaps x.off x.len 0 (16 * dir.length)
      || st.2.any (fun y => overlaps x.off x.len y.off y.len || x.ty == y.ty) then (rMalformed, st.2)
    else if !secKnown x && tb x.ty 15 then (0x23, st.2)
    else (0, x :: st.2)
  let r := (dir.foldl one (0, [])).1
  if r ≠ 0 then r
  else if [0x8001, 0x8002, 0x8003, 0x8004].all (fun t => (secData b t).isSome) then 0 else rMalformed

/-- PARTITION (R45). -/
def imgMode (b : List Byte) : Nat := field (secOr b 0x8001) 0 1
def imgGroupCount (b : List Byte) : Nat := field (secOr b 0x8001) 1 1
def imgInstCount (b : List Byte) : Nat := field (secOr b 0x8001) 2 2
def imgVfCount (b : List Byte) : Nat := field (secOr b 0x8001) 4 2
def imgStale (b : List Byte) : Nat := let s := field (secOr b 0x8001) 6 1; if s = 0 then 8 else s

/-- GROUPS: the set mask of each group (R46). -/
def imgGroups (b : List Byte) : List Nat :=
  (List.range (imgGroupCount b)).map fun i => field (secOr b 0x8002) (4 * i) 1

/-- FLASH_MUTE: the level, 0 where the section is absent (R49, R73). -/
def imgFlash (b : List Byte) : Nat := field (secOr b 0x0007) 0 1

/-- A credit entry (R48). -/
structure Credit where
  kind    : Nat
  index   : Nat
  cls     : Nat
  pkind   : Nat
  prod    : Nat
  credits : Nat
  deriving DecidableEq, Repr

def imgCredits (b : List Byte) : List Credit :=
  let d := secOr b 0x8004
  (List.range (d.length / 8)).map fun i =>
    let e := (d.drop (8 * i)).take 8
    ⟨field e 0 2 / 4096, field e 0 2 % 4096, field e 2 1, field e 3 1, field e 4 2, field e 6 2⟩

/-- Check 6 of R41 for one known section. A KEY_TABLE of another length than 768 fails it also where no request burns the table, which
R44 and R71 then ignore (DESIGN CHOICE, log entry 66). -/
def checkSec (b : List Byte) (x : Sec) : Bool :=
  let d := ((imgBody b).drop x.off).take x.len
  if x.ty = 0x8001 then
    x.len == 32 && decide (imgMode b ≤ 2) && decide (1 ≤ imgGroupCount b) && decide (imgGroupCount b ≤ 4)
      && decide (imgInstCount b ≤ 512) && decide (1 ≤ imgVfCount b) && decide (imgVfCount b ≤ 512)
      && field d 7 25 == 0
  else if x.ty = 0x8002 then
    let g := imgGroups b
    x.len == 4 * imgGroupCount b && (List.range (imgGroupCount b)).all (fun i => field d (4 * i + 1) 3 == 0) && g.all (fun m => decide (m < 16) && [1, 2, 4].contains (popCount 4 m))
      && (List.range 4).all fun s => decide ((g.filter fun m => tb m s).length ≤ 1)
  else if x.ty = 0x8003 then x.len == 32 * imgInstCount b
  else if x.ty = 0x8004 then
    x.len % 8 == 0 && (imgCredits b).all fun c =>
      decide (c.kind ≤ 8) && decide (c.cls ≤ 1) && decide (c.pkind ≤ 1) && decide (c.credits ≠ 0)
  else if x.ty = 0x0005 then
    x.len % 64 == 0 && (List.range (x.len / 64)).all fun i => field d (64 * i + 0x28) 24 == 0
  else if x.ty = 0x8006 then x.len % 8 == 0 && decide (x.len ≤ 32)
  else if x.ty = 0x0007 then x.len == 4 && decide (field d 0 1 ≤ 8) && field d 1 3 == 0
  else if x.ty = 0x8008 then x.len == 768
  else true

/-- Checks 1 to 6 of R41, phase 2 of R56: 0 passes. -/
def checkImage (b : List Byte) : Nat :=
  if checkHeader b ≠ 0 then checkHeader b
  else if sha384 (imgBody b) ≠ imgHash b then 0x30
  else if checkDir b ≠ 0 then checkDir b
  else if (imgDir b).all (fun x => !secKnown x || checkSec b x) then 0 else rMalformed

/-- A sealed commit's fuse row: slot, IMAGE_ID and the first 128 bits of BODY_HASH (R69). -/
structure Commit where
  slot : Nat
  id   : Nat
  hash : List Byte
  deriving DecidableEq, Repr

/-- The fuses (R70, R71, R74, R75). An operator slot without a key holds the empty list. -/
structure Fuses where
  lifecycle : Nat := 0
  floor     : Nat := 0
  keys      : List (List Byte) := List.replicate 16 []
  revoked   : Nat := 0
  commits   : List Commit := []
  deriving DecidableEq, Repr

def Fuses.key (f : Fuses) (k : Nat) : List Byte := f.keys.getD k []
def Fuses.holds (f : Fuses) (k : Nat) : Bool := !(f.key k).isEmpty

/-- The fuse requests of an image: KIND, ARG and whether the reserved bytes are 0 (R71). -/
def imgRequests (b : List Byte) : List (Nat × Nat × Bool) :=
  let d := secOr b 0x8006
  (List.range (d.length / 8)).map fun i =>
    let e := (d.drop (8 * i)).take 8
    (field e 0 1, field e 1 1, field e 2 6 == 0)

/-- Does the signature of R43 verify? -/
def imgSigned (b : List Byte) : Bool := ecdsaVerify (imgPub b) (imgSig b) (sha384 (b.take 0xB0))

/-- Is PUBKEY the key that KEY_INDEX names (R43)? -/
def imgKeyKnown (f : Fuses) (b : List Byte) : Bool :=
  let dg := sha384 (imgPub b)
  if imgKey b = 0xFF then dg == Config.rootKeyDigest else f.holds (imgKey b) && dg == f.key (imgKey b)

/-- Phase 3: the key, signature and lifecycle checks in the order of R50; 0 passes. -/
def checkKey (f : Fuses) (b : List Byte) : Nat :=
  let root := imgKey b == 0xFF
  let accepted :=
    if f.lifecycle = 0 || f.lifecycle = 3 then root
    else if f.lifecycle = 1 then true
    else !root || (imgRequests b).any fun r => r.1 == 1 && r.2.1 == 3
  if !imgKeyKnown f b then 0x32
  else if !imgSigned b then 0x31
  else if !root && tb f.revoked (imgKey b) then 0x33
  else if !accepted || !tb (imgMask b) f.lifecycle then 0x34
  else 0

/-- Entries of each queue point: those of R27 for the class, 0 where the table gives none or no such point exists.
DEDUCED: the number of fabric stations is not given, so any index is taken for kind 0. -/
def queueEntries (kind index cls : Nat) : Nat :=
  match kind with
  | 0 => 32
  | 1 => if index < 32 then 16 else 0
  | 2 => if index ≠ 0 then 0 else if cls = 0 then 256 else 768
  | 3 => if index ≠ 0 then 0 else if cls = 0 then 512 else 256
  | 4 => if index ≠ 0 then 0 else if cls = 0 then 128 else 512
  | 5 => if index < 20 && cls = 0 then 64 else 0
  | 6 => if index < 4 && cls = 0 then 32 else 0
  | 7 => if index = 0 && cls = 1 then 32 else 0
  | 8 => if index < 512 && cls = 0 then 64 else 0
  | _ => 0

/-- The credits held at one queue point and class. -/
def creditSum (l : List Credit) (kind index cls : Nat) : Nat :=
  (l.filter fun c => c.kind == kind && c.index == index && c.cls == cls).foldl (fun a c => a + c.credits) 0

/-- No queue point of a list holds more credits than entries (R28). -/
def creditsFit (l : List Credit) : Bool :=
  l.all fun c => decide (creditSum l c.kind c.index c.cls ≤ queueEntries c.kind c.index c.cls)

/-- Phase 4: the chip-engine entries (R28, R582); 0 passes. -/
def checkCredits (b : List Byte) : Nat :=
  if creditsFit ((imgCredits b).filter fun c => c.pkind == 0) then 0 else 0x40

/-- An INSTANCES entry (R47); `clean` tells that its reserved bytes are 0. -/
structure InstEntry where
  number  : Nat
  cls     : Nat
  slots   : Nat
  group   : Nat
  rates   : Nat
  stale   : Nat
  vramKib : Nat
  work    : Nat
  profile : Nat
  clean   : Bool
  deriving DecidableEq, Repr

def imgInstances (b : List Byte) : List InstEntry :=
  let d := secOr b 0x8003
  (List.range (imgInstCount b)).map fun i =>
    let e := (d.drop (32 * i)).take 32
    ⟨field e 0 2, field e 2 1, field e 3 1, field e 4 1, field e 5 1, field e 6 2, field e 8 4, field e 0xC 4, field e 0x10 4,
     field e 0x14 12 == 0⟩

/-- What the sums of R33 take from the device when phase 1 begins (R61): healthy cores, active renderers and healthy
compressors of each set, and the link: negotiated lanes (0 while it is down) and ten times the rate in GT/s. -/
structure LoadEnv where
  healthy : Nat := 66
  active  : List Nat := [4, 4, 4, 4]
  comps   : List Nat := [1, 1, 1, 1]
  lanes   : Nat := 0
  rate10  : Nat := 0
  deriving DecidableEq, Repr

/-- The admission record of an instance number (R61 to R63), with its placement (R401, R416). STATE is coded as R63. -/
structure Admit where
  state  : Nat := 0
  cls    : Nat := 0
  rate50 : Bool := false
  aud32  : Bool := false
  slots  : Nat := 0
  reason : Nat := 0
  work   : Nat := 0
  vram   : Nat := 0
  group  : Nat := 0
  stale  : Nat := 0
  audio  : Nat := 0xFFFFFFFF
  index  : Nat := 0
  pool   : Nat := 0
  workB  : Nat := 0
  strmB  : Nat := 0
  deriving DecidableEq, Repr

/-- The running sums of admission (R33), with the numbers seen and the entries admitted so far, newest first. -/
structure AdmitSums where
  slots   : Nat := 0
  px      : List Nat := [0, 0, 0, 0]
  egress  : Nat := 0
  gran    : Nat := 0
  hbm     : Nat := 0
  credits : List Credit := []
  seen    : List Nat := []
  okd     : List InstEntry := []
  res     : List (InstEntry × Nat) := []
  deriving DecidableEq, Repr

/-- Active pixels per frame of a class (R33's demand table). -/
def classPixels (c : Nat) : Nat := if c = 0 then 76800 else if c = 1 then 230400 else 518400
/-- vclk at 60 Hz of a class, in Hz. -/
def classVclk (c : Nat) : Nat := if c = 0 then 67200000 else if c = 1 then 100800000 else 136080000
/-- The stream buffer of a class in MiB (R36). -/
def streamMib (c : Nat) : Nat := if c = 0 then 1 else if c = 1 then 3 else 6
/-- Frames per second of an entry. -/
def entryHz (e : InstEntry) : Nat := if tb e.rates 0 then 50 else 60
/-- The instance slot capacity of R19. -/
def slotCapacity (h : Nat) : Nat := min 512 (8 * (h - 1))
/-- HBM bytes of an instance, in KiB (R36). -/
def hbmKib (work cls : Nat) : Nat := work * 1024 + streamMib cls * 1024 + 256 + 512

/-- Check FIELD of R61, with the granules of R401 and the profiles of R300. -/
def entryLegal (b : List Byte) (e : InstEntry) : Bool :=
  e.clean && decide (e.number < imgVfCount b) && decide (e.cls ≤ 2) && [1, 2, 4].contains e.slots
    && decide (e.group < imgGroupCount b) && decide (e.rates < 4) && decide (e.stale ≤ 255)
    && e.vramKib % 16 == 0 && decide (16 ≤ e.vramKib) && decide (e.vramKib ≤ 448)
    && decide (1 ≤ e.work) && decide (e.work ≤ 32)
    && (e.profile == 0xFFFFFFFF || decide (e.profile < (secOr b 0x0005).length / 64))

/-- Sum over the sets that a mask names. -/
def maskSum (mask : Nat) (l : List Nat) : Nat :=
  (List.range 4).foldl (fun a s => if tb mask s then a + l.getD s 0 else a) 0

/-- The credit check 0x0A of R61 under R582. -/
def instCreditsOk (b : List Byte) (sums : AdmitSums) (n : Nat) : Bool :=
  let all := imgCredits b
  let own := all.filter fun c => c.pkind == 1 && c.prod == n
  let wb := creditSum own 8 n 0
  own.all (fun c => (c.kind == 8 && c.index == n && c.cls == 0) || (c.kind == 7 && c.index == 0 && c.cls == 1))
    && decide (1 ≤ wb) && decide (wb ≤ 64)
    && creditsFit (own ++ sums.credits ++ all.filter fun c => c.pkind == 0)

/-- The reason an entry meets, 0 for none (R61). -/
def entryReason (b : List Byte) (env : LoadEnv) (sums : AdmitSums) (e : InstEntry) : Nat :=
  let quiet := imgMode b == 2
  let mask := (imgGroups b).getD e.group 0
  let px := classPixels e.cls * entryHz e
  let gpx := sums.px.getD e.group 0 + px
  let gclk10 := if quiet then 96 else 120
  let eg := sums.egress + px * 3 + (if tb e.rates 1 then 128000 else 192000)
  let lanes := if env.lanes = 0 then 8 else env.lanes
  let rate10 := if env.lanes = 0 then 640 else env.rate10
  let eff := if env.lanes ≠ 0 && rate10 < 80 then 8125 else 10000
  if !entryLegal b e then 1
  else if sums.seen.contains e.number then 2
  else if slotCapacity env.healthy < sums.slots + e.slots then 3
  else if e.slots * 150000000 * 100 < 125 * classVclk e.cls then 4
  else if 8 * maskSum mask env.active * gclk10 * 10000000 < 10 * gpx then 5
  else if 8 * maskSum mask env.comps * 8 * gclk10 * 1000000000 < 10 * 120 * gpx then 6
  else if 8 * 59000000000 * lanes * rate10 * eff < 10 * 8 * 640 * 10000 * eg then 7
  else if 6144 < sums.gran + e.vramKib / 16 then 8
  else if 32 * 1048576 < sums.hbm + hbmKib e.work e.cls + 8 * 1048576 + 262144 then 9
  else if !instCreditsOk b sums e.number then 0xA
  else 0

/-- One step of phase 6 (R61). A clamped entry adds nothing to any sum. -/
def admitStep (b : List Byte) (env : LoadEnv) (sums : AdmitSums) (e : InstEntry) : AdmitSums :=
  let r := entryReason b env sums e
  let sums := { sums with seen := e.number :: sums.seen, res := sums.res ++ [(e, r)] }
  if r ≠ 0 then sums else
  { sums with
    slots := sums.slots + e.slots
    px := sums.px.set e.group (sums.px.getD e.group 0 + classPixels e.cls * entryHz e)
    egress := sums.egress + classPixels e.cls * entryHz e * 3 + (if tb e.rates 1 then 128000 else 192000)
    gran := sums.gran + e.vramKib / 16
    hbm := sums.hbm + hbmKib e.work e.cls
    credits := sums.credits ++ (imgCredits b).filter fun c => c.pkind == 1 && c.prod == e.number
    okd := sums.okd ++ [e] }

/-- Phase 6: every entry in table order. -/
def admitAll (b : List Byte) (env : LoadEnv) : AdmitSums :=
  (imgInstances b).foldl (admitStep b env) {}

/-- Region bases in bytes after the management (0) and checkpoint regions: work, stream, echo, park, cache (R416). -/
def regionBases (l : List InstEntry) : List Nat :=
  let w := l.foldl (fun a e => a + e.work) 0 * 1048576
  let t := l.foldl (fun a e => a + streamMib e.cls) 0 * 1048576
  let b2 := 0x210000000
  [0, 0x10000000, b2, b2 + w, b2 + w + t, b2 + w + t + l.length * 262144, b2 + w + t + l.length * 786432]

/-- The record of an admitted entry at its place among the admitted (R401, R416). -/
def admitRecord (b : List Byte) (before : List InstEntry) (e : InstEntry) (bases : List Nat) : Admit :=
  { state := 2, cls := e.cls, rate50 := tb e.rates 0, aud32 := tb e.rates 1, slots := e.slots, reason := 0,
    work := e.work, vram := e.vramKib / 16, group := e.group,
    stale := if e.stale = 0 then imgStale b else e.stale, audio := e.profile, index := before.length,
    pool := before.foldl (fun a x => a + x.vramKib / 16) 0,
    workB := bases.getD 2 0 + before.foldl (fun a x => a + x.work) 0 * 1048576,
    strmB := bases.getD 3 0 + before.foldl (fun a x => a + streamMib x.cls) 0 * 1048576 }

/-- The records of phase 7 by instance number (R62, R63): the admitted entries, and the first entry of each other number
below 512. -/
def admitRecords (b : List Byte) (sums : AdmitSums) : Map Admit :=
  let bases := regionBases sums.okd
  let put (m : Map Admit) (x : InstEntry × Nat) : Map Admit :=
    if 512 ≤ x.1.number then m else
    if x.2 = 0 then
      m.put x.1.number (admitRecord b (sums.okd.takeWhile fun y => y.number != x.1.number) x.1 bases)
    else if m.any (fun k => k.1 == x.1.number) then m
    else m.put x.1.number { state := 1, reason := x.2 }
  sums.res.foldl put []

/-- A presence word (R63). -/
def presenceWord (a : Admit) : Word :=
  let ok := a.state == 2
  let slots := if a.slots = 4 then 3 else a.slots
  BitVec.ofNat 32 (a.state * 2 ^ 30 + (if ok then
    a.cls * 2 ^ 28 + b2n a.rate50 * 2 ^ 27 + b2n a.aud32 * 2 ^ 26 + slots * 2 ^ 24 + a.work * 2 ^ 10 + a.vram
    else a.reason * 2 ^ 16))

/-- The cause with which a fuse request is refused, 0 where it is burned (R71). -/
def requestCause (f : Fuses) (allow : Nat) (b : List Byte) (r : Nat × Nat × Bool) : Nat :=
  let (kind, arg, clean) := r
  let argOk := (kind = 1 && 1 ≤ arg && arg ≤ 3) || (kind = 2 && arg ≤ 15) || (kind = 3 && 1 ≤ arg && arg ≤ 8)
  let root := imgKey b == 0xFF
  if !clean || !argOk then 8
  else if allow = 0 then 1
  else if (kind = 1 && f.lifecycle = 3) || (kind = 3 && f.floor = 8) then 6
  else if kind = 1 && arg ≠ f.lifecycle + 1 then 2
  else if kind = 1 && (arg = 1 || arg = 3) && !root then 3
  else if kind = 1 && arg = 1 && (secData b 0x8008).isNone then 9
  else if kind = 2 && !f.holds arg then 10
  else if (kind = 2 && tb f.revoked arg) || (kind = 3 && arg ≤ f.floor) then 5
  else if kind = 2 && imgKey b = arg then 4
  else 0

/-- The fuses after a burn (R71, R72). -/
def burn (f : Fuses) (b : List Byte) (kind arg : Nat) : Fuses :=
  let table := (List.range 16).map fun k =>
    let d := ((secOr b 0x8008).drop (48 * k)).take 48
    if d.all (· == 0) then [] else d
  if kind = 1 then { f with lifecycle := arg, keys := if arg = 1 then table else f.keys }
  else if kind = 2 then { f with revoked := f.revoked ||| 2 ^ arg }
  else { f with floor := arg }

/-- The fuse count that DETAIL of FUSE_DONE holds (R77). -/
def fuseCount (f : Fuses) (kind : Nat) : Nat :=
  if kind = 1 then f.lifecycle else if kind = 2 then popCount 16 f.revoked else f.floor

end Sys2Proof.Machine
end

