-- ==== Sys2Proof/Machine/Mixer.lean ====
section
/-! DEFINITION. Sound voices and the mix graph (09_audio.md): one sample of one instance's mixer as a function of the
register values, work RAM, the echo line and the mixer's own state (R277). -/
namespace Sys2Proof.Machine

/-- A stereo value. -/
structure Stereo where
  l : Int := 0
  r : Int := 0
  deriving DecidableEq, Repr

/-- The sum of two stereo values. -/
def Stereo.add (a b : Stereo) : Stereo := ⟨a.l + b.l, a.r + b.r⟩

/-- A multiplexer: the value in force, the value it fades out, and the last step computed of a running crossfade, from
1 to 32, or 0 when none runs (R290). -/
structure Mux where
  cur : Nat := 0
  old : Nat := 0
  j   : Nat := 0
  deriving DecidableEq, Repr

/-- A bus gain and its ramp: target, start, last step computed, gain of the last sample (R289). -/
structure Ramp where
  gt : Int := 32768
  g0 : Int := 32768
  j  : Nat := 0
  g  : Int := 32768
  deriving DecidableEq, Repr

/-- What a voice keeps between samples besides its registers (R283, R284, R286). -/
structure Voice where
  phase   : Nat := 0
  pos     : Nat := 0
  lfsr    : Nat := 0
  envCnt  : Nat := 0
  prevKey : Bool := false
  restart : Bool := false
  route   : Mux := {}
  hard    : Option Nat := none
  deriving DecidableEq, Repr

/-- The mixer's own state (R279). -/
structure MixState where
  voices  : List Voice := List.replicate 16 {}
  buses   : List Ramp := List.replicate 4 {}
  counts  : List Nat := [0, 0, 0, 0]
  filt    : Mux := {}
  echo    : Mux := {}
  dryMain : Mux := {}
  fxRet   : Mux := {}
  low     : Stereo := {}
  band    : Stereo := {}
  high    : Stereo := {}
  wp      : Nat := 0
  next    : Nat := 0
  bypBlk  : List Stereo := []
  bypN    : Bool := false
  deriving DecidableEq, Repr

/-- A crossfading multiplexer at a sample boundary, given its field's value (R290, R291). -/
def Mux.step (m : Mux) (v : Nat) : Mux :=
  if 0 < m.j && decide (m.j < 32) then { m with j := m.j + 1 }
  else if v = m.cur then { m with j := 0, old := m.cur }
  else ⟨v, m.cur, 1⟩

/-- A hard multiplexer value of a voice route: BYPASS on either side (R287). -/
def isHard (a b : Nat) : Bool := a == 3 || b == 3

/-- A voice route at a sample boundary: `hard` is the newest value reached through a hard switch since the last
boundary, which alone can end a running crossfade (R290, R291). -/
def routeStep (m : Mux) (v : Nat) (hard : Option Nat) : Mux :=
  let fading := 0 < m.j && decide (m.j < 32)
  if fading then
    match hard with
    | none => { m with j := m.j + 1 }
    | some h => if v = h then ⟨v, v, 0⟩ else ⟨v, h, 1⟩
  else if v = m.cur then ⟨v, v, 0⟩
  else if isHard v m.cur then ⟨v, v, 0⟩
  else ⟨v, m.cur, 1⟩

/-- The parts of a signal that go to the old and the new input of a multiplexer (R290). -/
def Mux.split (m : Mux) (a : Int) : Int × Int :=
  if m.j = 0 then (0, a) else ((a * (32 - m.j : Int)) >>> 5, (a * (m.j : Int)) >>> 5)

/-- The output of a multiplexer that sums its two parts; `f` gives the signal of each input (R290). -/
def Mux.mix (m : Mux) (f : Nat → Stereo) : Stereo :=
  if m.j = 0 then f m.cur
  else
    let a := f m.old
    let b := f m.cur
    ⟨(m.split a.l).1 + (m.split b.l).2, (m.split a.r).1 + (m.split b.r).2⟩

/-- A ramp at a sample, given its target (R289). -/
def Ramp.step (r : Ramp) (gt : Int) : Ramp :=
  if gt ≠ r.gt then
    { gt, g0 := r.g, j := 1, g := r.g + Int.tdiv ((gt - r.g) * 1) 32 }
  else if 0 < r.j && decide (r.j < 32) then
    { r with j := r.j + 1, g := r.g0 + Int.tdiv ((r.gt - r.g0) * (r.j + 1 : Nat)) 32 }
  else { r with j := 0, g := r.gt }

/-- A limited value and whether it was limited (R293). -/
def satW (w : Nat) (v : Int) : Int × Bool :=
  let hi : Int := (2 ^ (w - 1) : Nat) - 1
  let lo : Int := -((2 ^ (w - 1) : Nat) : Int)
  (clampI lo hi v, decide (v < lo) || decide (hi < v))

/-- Both channels limited. -/
def satS (w : Nat) (s : Stereo) : Stereo × Bool :=
  let (a, x) := satW w s.l
  let (b, y) := satW w s.r
  (⟨a, b⟩, x || y)

/-- What one voice gave at a sample. -/
structure VoiceOut where
  v     : Voice
  key   : Bool
  env   : Nat
  xl    : Int := 0
  xr    : Int := 0
  ended : Bool := false
  range : Bool := false
  deriving DecidableEq, Repr

/-- A voice fetch from work RAM (R285). -/
def voiceByte (wr : Nat → Byte) (size a : Nat) : Nat × Bool :=
  if a < size then ((wr a).toNat, false) else (0, true)

/-- The raw value of a voice and its advance (R284); the Boolean results are ENDED and RANGE. -/
def voiceRaw (wr : Nat → Byte) (size ctrl freq addr len start : Nat) (v : Voice) : Int × Voice × Bool × Bool :=
  let ph := (v.phase + freq) % 2 ^ 32
  match bits ctrl 9 8 with
  | 0 => (if v.phase / 2 ^ 24 < bits ctrl 23 16 then 16384 else -16384, { v with phase := ph }, false, false)
  | 1 =>
    let x : Int := if v.lfsr % 2 = 0 then 16384 else -16384
    let carry := decide (2 ^ 32 ≤ v.phase + freq)
    let l :=
      if !carry then v.lfsr
      else if tb ctrl 5 then
        let q := v.lfsr % 512
        let q := if q = 0 then 0x1FF else q
        if q % 2 = 1 then nxor (q / 2) 0x108 else q / 2
      else if v.lfsr % 2 = 1 then nxor (v.lfsr / 2) 0x10004 else v.lfsr / 2
    (x, { v with phase := ph, lfsr := l }, false, false)
  | 2 =>
    let (b, r) := voiceByte wr size (addr + v.phase / 2 ^ 24)
    (256 * sext 8 b, { v with phase := ph }, false, r)
  | _ =>
    let p := if len * 65536 ≤ v.pos && tb ctrl 3 && decide (start < len) then
        start * 65536 + (v.pos - len * 65536) % ((len - start) * 65536)
      else v.pos
    let v := { v with pos := p }
    let pi := p / 65536
    if len ≤ pi then (0, v, true, false)
    else if tb ctrl 4 then
      let a := addr / 2 * 2 + 2 * pi
      let (b0, r0) := voiceByte wr size a
      let (b1, r1) := voiceByte wr size (a + 1)
      (sext 16 (b0 + 256 * b1), { v with pos := p + freq }, false, r0 || r1)
    else
      let (b, r) := voiceByte wr size (addr + pi)
      (256 * sext 8 b, { v with pos := p + freq }, false, r)

/-- One voice at one sample: key-on, value, contributions, envelope (R283 to R286). -/
def voiceStep (rg : Nat → Nat) (wr : Nat → Byte) (size i : Nat) (v0 : Voice) : VoiceOut :=
  let o := 0x4100 + 0x40 * i
  let ctrl := rg o
  let env := rg (o + 12)
  let key := tb ctrl 31
  let keyOn := (key && !v0.prevKey) || v0.restart
  let v1 := if keyOn then { v0 with phase := 0, pos := 0, lfsr := 0x1FFFF, envCnt := 0 } else v0
  let v1 := { v1 with prevKey := key, restart := false, hard := none,
                      route := routeStep v1.route (bits ctrl 13 12) v1.hard }
  if !key then { v := v1, key := false, env }
  else
    let (x, v2, ended, range) := voiceRaw wr size ctrl (rg (o + 4)) (rg (o + 16)) (rg (o + 20)) (rg (o + 24)) v1
    let level := bits env 7 0
    let vol := rg (o + 8)
    let target := bits env 23 16
    let (cnt, level') :=
      if level = target then (v2.envCnt, level)
      else if bits env 15 8 < v2.envCnt + 1 then (0, if level < target then level + 1 else level - 1)
      else (v2.envCnt + 1, level)
    { v := { v2 with envCnt := cnt }, key := true, env := setBits env 7 0 level',
      xl := (x * level * bits vol 7 0) >>> 16, xr := (x * level * bits vol 15 8) >>> 16, ended, range }

/-- The contributions of all voices to a bus: 1 DRY, 2 FX, 3 BYPASS (R290). -/
def busSum (outs : List VoiceOut) (bus : Nat) : Stereo :=
  outs.foldl (fun a o =>
    if !o.key then a else
    let m := o.v.route
    let pl := m.split o.xl
    let pr := m.split o.xr
    let a := if m.cur = bus then a.add ⟨pl.2, pr.2⟩ else a
    if m.j ≠ 0 && m.old = bus then a.add ⟨pl.1, pr.1⟩ else a) {}

/-- The gain target of a bus register for a count (R288). -/
def gainTarget (bus n : Nat) : Int := if tb bus 31 then (32768 / max n 1 : Nat) else (bits bus 15 0 : Nat)

/-- A bus sum through its gain (R293). -/
def busOut (s : Stereo) (g : Int) : Stereo × Bool := satS 16 ⟨(s.l * g) >>> 15, (s.r * g) >>> 15⟩

/-- The filter of one channel: low, band, high and whether a limit acted (R294). -/
def filtCh (coef : Nat) (u low band : Int) : Int × Int × Int × Bool :=
  let f : Int := bits coef 15 0
  let damp : Int := bits coef 31 16
  let (lo, a) := satW 24 (low + ((f * band) >>> 15))
  let (hi, b) := satW 24 (u - lo - ((damp * band) >>> 14))
  let (bd, c) := satW 24 (band + ((f * hi) >>> 15))
  (lo, bd, hi, a || b || c)

/-- What one sample gives: new mixer state, registers that the mixer changes, status, and the two outputs. -/
structure MixOut where
  st     : MixState
  envs   : List Nat
  keys   : List Bool
  ended  : Nat
  status : Nat
  main   : Stereo
  byp    : Stereo
  bypN   : Nat
  echoWr : Option (Nat × Stereo)
  deriving DecidableEq, Repr

/-- The mix of one sample (R284 to R295). `echoRd` reads one stereo frame of the echo line. -/
def mixSample (rg : Nat → Nat) (wr : Nat → Byte) (size : Nat) (echoRd : Nat → Stereo) (m : MixState) : MixOut :=
  let outs := m.voices.zipIdx.map fun (v, i) => voiceStep rg wr size i v
  let ctrl := rg 0x4000
  let filt := m.filt.step (bits (rg 0x4040) 1 0)
  let echo := m.echo.step (bit (rg 0x4050) 31)
  let dryM := m.dryMain.step (bit ctrl 0)
  let fxR := m.fxRet.step (bit ctrl 1)
  let bypM := tb ctrl 2
  let cnt (b : Nat) : Nat := (outs.filter fun o => o.key && o.v.route.cur = b).length
  let nD := cnt 1; let nF := cnt 2; let nB := cnt 3
  let nM := b2n (dryM.cur = 1 && decide (0 < nD)) + b2n (fxR.cur = 1 && (decide (0 < nF) || echo.cur = 1))
    + b2n (bypM && decide (0 < nB))
  let ns := [nD, nF, nB, nM]
  let ramps := m.buses.zipIdx.map fun (r, i) => r.step (gainTarget (rg (0x4020 + 4 * i)) (ns.getD i 0))
  let g i := (ramps.getD i {}).g
  let (dry, s0) := busOut (busSum outs 1) (g 0)
  let (fx, s1) := busOut (busSum outs 2) (g 1)
  let (byp, s2) := busOut (busSum outs 3) (g 2)
  let coef := rg 0x4044
  let (lowL, bandL, highL, s3) := filtCh coef fx.l m.low.l m.band.l
  let (lowR, bandR, highR, s4) := filtCh coef fx.r m.low.r m.band.r
  let sel (i : Nat) : Stereo × Bool := match i with
    | 0 => (fx, false)
    | 1 => satS 16 ⟨lowL, lowR⟩
    | 2 => satS 16 ⟨bandL, bandR⟩
    | _ => satS 16 ⟨highL, highR⟩
  let f := filt.mix fun i => (sel i).1
  let s5 := (sel filt.cur).2 || (filt.j ≠ 0 && (sel filt.old).2)
  let run := echo.cur = 1 || echo.j ≠ 0
  let d := echoRd ((m.wp + 65536 - bits (rg 0x4050) 15 0) % 65536)
  let fb := sext 16 (bits (rg 0x4054) 31 16)
  let wet := sext 16 (bits (rg 0x4054) 15 0)
  let dg := sext 16 (bits (rg 0x4058) 15 0)
  let (line, s6) := satS 16 ⟨f.l + ((fb * d.l) >>> 15), f.r + ((fb * d.r) >>> 15)⟩
  let (ret, s7) := satS 16 ⟨(dg * f.l + wet * d.l) >>> 15, (dg * f.r + wet * d.r) >>> 15⟩
  let eo := echo.mix fun i => if i = 1 then ret else f
  let dryIn := dryM.mix fun i => if i = 1 then dry else {}
  let fxIn := fxR.mix fun i => if i = 1 then eo else {}
  let bypIn : Stereo := if bypM then byp else {}
  let (main, s8) := busOut (dryIn.add (fxIn.add bypIn)) (g 3)
  let sat := s0 || s1 || s2 || s3 || s4 || s5 || (run && (s6 || s7)) || s8
  let ended := outs.zipIdx.foldl (fun a (o, i) => if o.ended then a ||| (1 <<< i) else a) 0
  let full := m.bypBlk.length = 32
  { st := { m with
      voices := outs.map (·.v), buses := ramps, counts := ns, filt, echo, dryMain := dryM, fxRet := fxR,
      low := ⟨lowL, lowR⟩, band := ⟨bandL, bandR⟩, high := ⟨highL, highR⟩,
      wp := if run then (m.wp + 1) % 65536 else m.wp, next := m.next + 1,
      bypBlk := (if full then [] else m.bypBlk) ++ [byp],
      bypN := (!full && m.bypN) || decide (0 < nB) },
    envs := outs.map (·.env), keys := outs.map fun o => o.key && !o.ended, ended,
    status := b2n sat * 2 + b2n (outs.any (·.range)), main, byp, bypN := nB,
    echoWr := if run then some (m.wp, line) else none }

/-- The bytes of stereo samples in the format of an audio block (R253). -/
def audioBytes (l : List Stereo) : List Byte :=
  (l.map fun s => leBytes 2 (wrap 16 s.l) ++ leBytes 2 (wrap 16 s.r)).flatten

/-- AUD_V_POS as read (R282). -/
def voicePos (type : Nat) (v : Voice) : Nat := if type = 3 then (v.pos / 65536) % 2 ^ 24 else v.phase

end Sys2Proof.Machine
end

