-- ==== Sys2Proof/Machine/InstState.lean ====
section
/-! DEFINITION. The state of one instance: what R435 calls instance state (`Core`), its checkpoints, and what the device
keeps for the instance besides (stream, ladder, pacing, rings). Plain data throughout. -/
namespace Sys2Proof.Machine

/-- The default of a register or byte table: zero everywhere. -/
def zeroAt {α : Type} [OfNat α 0] : Nat → α := fun _ => 0

/-- An entry of a thread's interrupt stack (R354). -/
structure IntFrame where
  resume : Word
  inTrap : Bool
  level  : Nat
  deriving DecidableEq, Repr

/-- One thread (R301, R302, R91, R298, R354). -/
structure Thread where
  g         : Map Word := []
  pc        : Word := 0
  run       : Bool := false
  waiting   : Bool := false
  inTrap    : Bool := false
  dblTrap   : Bool := false
  epc       : Word := 0
  trapInfo  : Word := 0
  trapCause : Word := 0
  trapAddr  : Word := 0
  scratch0  : Word := 0
  scratch1  : Word := 0
  pos       : Nat := 0
  stack     : List IntFrame := []
  level     : Nat := 0
  vcHi      : Word := 0
  sampHi    : Word := 0
  deriving DecidableEq, Repr

/-- A claim in service: source, thread and depth (R356). -/
structure Claim where
  src    : Nat
  thread : Nat
  depth  : Nat
  deriving DecidableEq, Repr

/-- A segment's registers as fixed for an engine (R224, R383). -/
structure SegVal where
  base  : Nat := 0
  limit : Nat := 0
  ctrl  : Nat := 0
  deriving DecidableEq, Repr

/-- A DMA transfer of one channel (R382 to R389). -/
structure DmaXfer where
  active  : Bool := false
  start   : Nat := 0
  prio    : Nat := 0
  count   : Nat := 0
  src     : Nat := 0
  dst     : Nat := 0
  srcSeg  : Nat := 0
  dstSeg  : Nat := 0
  checked : Bool := false
  sv      : SegVal := {}
  dv      : SegVal := {}
  next    : Nat := 0
  written : Nat := 0
  deriving DecidableEq, Repr

/-- A beat that has been read and not landed (R104): its stamp, where it came from, and its bytes by space offset. The
space is numbered as SPACE of SEG_CTRL (R310). -/
structure Beat where
  stamp : Nat
  dma   : Bool
  unit  : Nat
  space : Nat
  data  : List (Nat × List Byte)
  deriving DecidableEq, Repr

/-- Where a blit job stands on its way through the shared queue (R230, R231). -/
inductive BlitPhase where
  | waiting | queued | running | aside
  deriving DecidableEq, Repr

/-- A blit job not ended (R215 to R231). -/
structure BlitJob where
  seq     : Nat
  desc    : BlitDesc
  stamp   : Nat
  start   : Nat := 0
  checked : Bool := false
  scr     : SegVal := {}
  next    : Nat := 0
  phase   : BlitPhase := .waiting
  ownCred : Bool := false
  deriving DecidableEq, Repr

/-- An effect that falls at a fixed place of virtual time without a command of its own (R351, R355, R369, R152, R225). -/
inductive Micro where
  /-- a program write of ICU_SRC_CFG lands one vc after its stamp (R351) -/
  | srcCfg (src : Nat) (v : Word)
  /-- a capture acts after the ticks of its stamp (R369) -/
  | capture (tim : Nat)
  /-- a capture set aside by a read of its own stamp lands one vc later (R369) -/
  | captLate (tim : Nat) (v : Word)
  /-- an IRET from an interrupt completes: the stack is popped, and the services of the depth end (R355) -/
  | endService (thread depth : Nat)
  /-- the status point of a rendered line (R152, R200) -/
  | status (frame line : Nat) (v : LineVideo) (cmp : Nat) (caps : List CapWrite)
  /-- watermark bits of BLT_STATUS set (R229) -/
  | blitWm (set : Nat)
  /-- the blit job at the head ends with a result (R225) -/
  | blitEnd (result : Nat)
  /-- a target of the event matrix acts (R376) -/
  | act (target : Nat)
  /-- VBL (bit 0) or LATCH (bit 1) of R348 changes -/
  | beam (k : Nat) (on : Bool)
  /-- DMA_COUNT falls at a beat's write stamp (R385) -/
  | dmaCount (chan bytes : Nat)
  /-- a transfer that writes nothing ends at s + 2 (R383) -/
  | dmaPre (chan : Nat)
  /-- a blit job that writes nothing ends at its start (R220) -/
  | blitPre
  /-- the end of a DMA transfer (R385, R388, R389) -/
  | dmaEnd (chan result side addr : Nat)
  deriving DecidableEq, Repr

/-- A journal entry: its place in order (twice the stamp plus one; a cue write lies at twice its state point), whether
it aims at a register, the address, and its bytes, `none` where the byte mask is 0 (R98, R99, R168). -/
structure JournalEntry where
  ord   : Nat
  isReg : Bool
  addr  : Nat
  data  : List (Option Byte)
  deriving DecidableEq, Repr

/-- A pulse of the event matrix waiting for its stamp (R373). `act` names a target for a pulse delayed by THREE_FLOP. -/
structure Pulse where
  stamp : Nat
  src   : Nat
  act   : Option Nat := none
  deriving DecidableEq, Repr

/-- Everything that is instance state (R435). `timing` is the timing mode of the running frame and `timingIn` the one
latched for the next (R120); `live` holds the live copies of the composer (R179); `micro` holds the effects that fall at
fixed places, each with its key; `lastKey` is the key of the newest event that took effect. -/
structure Core where
  regs     : Map Word := []
  live     : Map Word := []
  commit   : Bool := false
  timing   : Word := 0
  timingIn : Word := 0
  beam     : Nat := 0
  threads  : List Thread := List.replicate 4 {}
  latched  : Nat := 0
  claims   : List Claim := []
  signals  : Nat := 0
  micro    : List (Nat × Micro) := []
  pulses   : List Pulse := []
  lastAct  : Map Nat := []
  timNext  : List (Option Nat) := [none, none, none, none]
  captSave : List (Option (Nat × Word × Bool × Bool)) := [none, none, none, none]
  btimW    : List Nat := [0, 0, 0, 0]
  cueEn    : Nat := 0
  cueBase  : List Nat := [0, 0, 0, 0]
  cueCur   : List Nat := [0, 0, 0, 0]
  mix      : MixState := {}
  dma      : List DmaXfer := List.replicate 4 {}
  pipeFree : Nat := 0
  pipeLast : Option Nat := none
  blits    : List BlitJob := []
  blitEnd  : Nat := 0
  beats    : List Beat := []
  input    : List Byte := []
  nextLine : Nat := 0
  nextLtch : Nat := 0
  lastKey  : Nat := 0
  frame    : Nat := 0
  deriving DecidableEq, Repr

/-- A host write held for a frame boundary, or recorded in a host-write log (R105, R434): window offset and value. -/
structure HostWrite where
  off   : Nat
  value : Word
  deriving DecidableEq, Repr

/-- An undo block: region, block number, and the cells of the block that were listed (R434, R436). -/
structure UndoBlock where
  region : Nat
  block  : Nat
  cells  : List (Nat × Byte)
  deriving DecidableEq, Repr

/-- The input of a frame: the 64-byte record and whether it was synthesised (R109, R434, R476). -/
structure InputRec where
  data  : List Byte := []
  synth : Bool := true
  deriving DecidableEq, Repr

/-- A ring entry of Bellows: one checkpoint (R433 to R437). -/
structure Ckpt where
  frame : Nat
  core  : Core
  undo  : List UndoBlock := []
  input : Option InputRec := none
  hlog  : List HostWrite := []
  deriving DecidableEq, Repr

/-- A replay record of a boundary (R440). -/
structure Replay where
  frame : Nat
  input : Option InputRec
  hlog  : List HostWrite
  deriving DecidableEq, Repr

/-- An input packet held for its frame (R475). -/
structure HeldInput where
  frame : Nat
  data  : List Byte
  at'   : Nat
  deriving DecidableEq, Repr

/-- A line job handed to the beam scheduler (R116): its frame and line, the frame's timing mode and composer state
(R189), its deadline (none in catch-up, R118), and the number of its enqueue. -/
structure LineJob where
  frame    : Nat
  line     : Nat
  timing   : Word
  live     : Map Word
  deadline : Option Nat
  enq      : Nat
  deriving DecidableEq, Repr

/-- A line that a renderer has captured and is finishing (R98, R119). -/
structure Rendering where
  job      : LineJob
  renderer : Nat
  video    : LineVideo
  cmp      : Nat
  pic      : List Nat
  caps     : List CapWrite
  deriving DecidableEq, Repr

/-- A frame on its way through the stream (R197, R232): its marks and settings, the lines merged so far with the running
CRCs of R254 and the cell sums of R262, the lines that wait for a compressor, the block rows encoded, and its audio. -/
structure FrameBuild where
  frame    : Nat
  timing   : Word
  slot     : Nat
  synth    : Bool := false
  modeCh   : Bool := false
  rewound  : Bool := false
  gain     : Nat := 256
  lines    : Nat := 0
  instCrc  : Nat := 0xFFFFFFFF
  frameCrc : Nat := 0xFFFFFFFF
  sums     : List Nat := List.replicate 144 0
  out      : List (List Nat) := []
  rows     : List (List Byte) := []
  audio    : List Stereo := []
  late     : Nat := 0
  stale    : Bool := false
  bell     : BellCfg := {}
  bank     : Nat := 0
  bellDone : Bool := false
  bellBad  : Bool := false
  deriving DecidableEq, Repr

/-- A complete packet (R236, R246), with its number in order of completion, and the number it took as its mover channel left it for
want of room (R392). Its bytes lie in the stream buffer in HBM; slot 4 is a fault packet that waits for a
slot with its header in `data` (R237). -/
structure Packet where
  frame  : Nat
  slot   : Nat
  total  : Nat
  seq    : Nat := 0
  left   : Option Nat := none
  fault  : Bool := false
  first  : Bool := false
  moved  : Bool := false
  data   : List Byte := []
  deriving DecidableEq, Repr

/-- The Bell settings of an instance beside its registers and banks (R203, R208): the active settings, and the settings
that a release has made active from its frame on while earlier frames are still merged with the former ones. -/
structure Bell where
  act  : BellCfg := {}
  next : Option BellCfg := none
  deriving DecidableEq, Repr

/-- The rungs of the ladder, with RUNG codes 0 to 4 (R448). -/
inductive Rung where
  | playing | held | benched | parked | shelved
  deriving DecidableEq, Repr

/-- A rung command of an instance: its OP code, REWIND's operands, the TAG of the command ring entry it came from, whether
it waits under the limit of R449, its number in order of arrival, and its result while its completion waits for room (R477). -/
structure RungCmd where
  op    : Nat
  back  : Nat := 0
  wait  : Bool := false
  tag   : Option Nat := none
  queued : Bool := false
  seq   : Nat := 0
  ended : Option Nat := none
  deriving DecidableEq, Repr

/-- Catch-up after a REWIND: the frame it runs to, and whether it waits for packets (R442). -/
structure CatchUp where
  goal : Nat
  wait : Bool
  deriving DecidableEq, Repr

/-- A bypass block that waits for its move, with its number in order of completion (R296, R392, R481). -/
structure BypBlock where
  seq   : Nat
  first : Nat
  data  : List Stereo
  deriving DecidableEq, Repr

/-- The PCIe side of an instance: its VF (R464 to R493). `msix` holds the words of the MSI-X table by offset, `pba` the
pending bits, `phases` and `seqs` the pass and count of each ring since its enable (R478, R481). -/
structure Vf where
  regs    : Map Word := []
  msix    : Map Word := []
  pba     : Nat := 0
  msixOn  : Bool := false
  msixOff : Bool := false
  enabled : Bool := false
  mse     : Bool := false
  bme     : Bool := false
  flr     : Bool := false
  phases  : List Bool := [true, true, true, true, true]
  seqs    : List Nat := [0, 0, 0, 0, 0]
  unsig   : Nat := 0
  bypQ    : List BypBlock := []
  bypLost : Nat := 0
  deriving DecidableEq, Repr

/-- Everything the device keeps for an instance (R15). `core` is its instance state; the rest is not (R434). Frames below
`doneTo` have their packets complete (R237); `modeCh` and `rewound` mark the next frame to be streamed (R234); `hist`,
`whDue` and `staleRun` with `staleSig` are the Whistle's history, its running watchdogs and the stale count (R255 to
R260); `active` holds the frames that had activity (R259), and `relAt` is the wall time of the newest release (R117). `fence`
holds the threads whose store has met a full journal (R102), and `found` holds causes of R529 that the running command has detected, each with its ADDR, until the reaction of R530.
`hostAt` is the host position as the instance left Playing (R580), and `modes` the timing modes of the frames, newest first, each with
the first frame that it was in force for (R84, R120). `cut` tells that the entry NEWEST − 1 of the ring was discarded (R438, R447). `place` is the global slot of thread t0 (R17, R18), and `lastFault` tells that the newest packet was a fault packet (R272). -/
structure Inst where
  adm     : Admit := {}
  core      : Core := {}
  regs      : Map Word := []
  rung      : Rung := .shelved
  faultHeld : Bool := false
  found     : List (Nat × Nat) := []
  aligned   : Bool := true
  shelfOk   : Bool := false
  running   : Option RungCmd := none
  ring      : List Ckpt := []
  ckptDone  : Bool := true
  noUndo    : Bool := false
  cut       : Bool := false
  replay    : List Replay := []
  catchUp   : Option CatchUp := none
  rewound   : Bool := false
  held      : List HeldInput := []
  hostHeld  : List HostWrite := []
  hlog      : List HostWrite := []
  released  : Nat := 0
  anchor    : Option (Nat × Nat) := none
  relAt     : Nat := 0
  reanchor  : Bool := true
  expired   : Bool := false
  journal   : List JournalEntry := []
  fence     : List Nat := []
  jobs      : List LineJob := []
  rendering : List Rendering := []
  builds    : List FrameBuild := []
  preAudio  : List Stereo := []
  packets   : List Packet := []
  lastFault : Bool := false
  dropped   : Nat := 0
  doneTo    : Nat := 0
  modeCh    : Bool := false
  hist      : Option (Nat × Nat) := none
  whDue     : List Nat := []
  staleRun  : Nat := 0
  staleSig  : Option Nat := none
  active    : List Nat := []
  gain      : Nat := 256
  calm      : Nat := 0
  cells     : List FlashCell := []
  bell      : Bell := {}
  vf        : Vf := {}
  vcHi      : Word := 0
  sampHi    : Word := 0
  hostAt    : Nat := 0
  modes     : List (Nat × Word) := []
  place     : Option Nat := none
  deriving DecidableEq, Repr

end Sys2Proof.Machine
end

