-- ==== Sys2Proof/Machine/ChipState.lean ====
section
/-! DEFINITION. The state of the device outside its instances: the image in force, MRAM and fuses, boot, power, safety,
pins, the host interface, the movers, the shared engines, the memories' error state and the monitor outputs. -/
namespace Sys2Proof.Machine

/-- The Serfer image in force (R40, R59, R64): MODE 3 is no image; `flash` is the Flash Mute level in force (R73), `audio` the
AUDIO_DEFAULTS, `bases` the HBM regions (R416). -/
structure ImageSt where
  mode    : Nat := 3
  id      : Nat := 0
  groups  : List Nat := []
  credits : List Credit := []
  flash   : Nat := 0
  audio   : List Byte := []
  clamped : Nat := 0
  admitted : Nat := 0
  bases   : List Nat := [0, 0x10000000, 0x210000000, 0x210000000, 0x210000000, 0x210000000, 0x210000000]
  deriving DecidableEq, Repr

/-- A Serfer operation under way: its OP and SLOT, what phase 1 began with (R61), the PHASE in progress and the ms gone by
(R53, R56), the fuse requests still to handle, and how far the first of them has come: 1 with FUSE_INTENT written, 2 with the
fuses burned (R71, R78); `seq` is its age among the orders (R391). -/
structure MgtOp where
  op    : Nat
  slot  : Nat
  env   : LoadEnv
  phase : Nat := 1
  ms    : Nat := 0
  burns : List (Nat × Nat × Bool) := []
  burn  : Nat := 0
  seq   : Nat := 0
  deriving DecidableEq, Repr

/-- One slot of the MRAM profile store (R66, R67). -/
structure Slot where
  image  : List Byte := []
  valid  : Bool := false
  writes : Nat := 0
  deriving DecidableEq, Repr

/-- An audit log entry (R77) with its CRC as stored; `ofSeal` marks the fuse entries of a sealed commit, whose ARG the manual does
not give. -/
structure LogEntry where
  seq    : Nat
  kind   : Nat
  arg    : Nat
  cause  : Nat
  boots  : Nat
  id     : Nat
  detail : Nat
  ofSeal : Bool := false
  crc    : Nat := 0
  deriving DecidableEq, Repr

/-- The MRAM profile store: slots, log newest first, and the boot count that log entries carry (R66, R76, R77). -/
structure Mram where
  slots : List Slot := List.replicate 8 {}
  log   : List LogEntry := []
  head  : Nat := 0
  boots : Nat := 0
  deriving DecidableEq, Repr

/-- The secrets area of the Vault (R412): working copies of the key digests, the device key that boot derives, and the fuse
shadows. The fields of a wiped area hold nothing. -/
structure Secrets where
  digests   : List (List Byte) := []
  deviceKey : Option Word := none
  shadows   : Option Fuses := none
  deriving DecidableEq, Repr

/-- The Vault areas (R412, R413, R557): the firmware area, the staging area and the secrets; `wipeEnd` tells that a wipe of all
of it runs; `ce` and `ue` are its words with one and with two corrupted bits (R406). -/
structure Vault where
  firmware : List Byte := []
  staging  : List Byte := []
  secrets  : Secrets := {}
  wipeEnd  : Bool := false
  ce       : List Nat := []
  ue       : List Nat := []
  deriving DecidableEq, Repr

/-- A wipe of the words `from'` to below `upto` of the Vault, which it writes with correct check bits (R413). DESIGN CHOICE (log entry
70): the staging area lies at words 0 to 0x1FFFF, the secrets at 0x20000, the firmware area at 0x40000. -/
def Vault.stored (v : Vault) (from' upto : Nat) : Vault :=
  let keep (w : Nat) : Bool := decide (w < from') || decide (upto ≤ w)
  { v with ce := v.ce.filter keep, ue := v.ue.filter keep }
/-- The staging area wiped. -/
def Vault.noStaging (v : Vault) : Vault := { v.stored 0 0x20000 with staging := [] }
/-- The secrets area wiped. -/
def Vault.noSecrets (v : Vault) : Vault := { v.stored 0x20000 0x40000 with secrets := {} }

/-- Reset, boot and the boot flash (R555 to R563): whether the device is powered, PERST# is asserted, boot runs, has stopped
for good, is in recovery or has made the device ready; the two firmware copies in the flash, empty where erased; and the
mailbox command that runs, as its OP and the four arguments. -/
structure BootSt where
  powered : Bool := true
  perst   : Bool := true
  booting : Bool := false
  stopped : Bool := false
  recovery : Bool := false
  ready   : Bool := false
  copyA   : List Byte := []
  copyB   : List Byte := []
  mbx     : Option (List Nat) := none
  deriving DecidableEq, Repr

/-- An access of the host that met the register mirror, or the action of a wake write, which waits for Idle (R505, R506). -/
inductive MirrorOp where
  | write (p : Path) (a : RegAddr) (width v : Nat)
  | read (p : Path) (a : RegAddr) (width : Nat)
  | act (p : Path) (a : RegAddr) (width v : Nat)
  deriving DecidableEq, Repr

/-- Power: an entry or exit under way (its target state), the target of the newest entry, the domains that drain, the governor's queue
in order of age, and the register mirror: the GPIO block as it stood at the snapshot, and the accesses since (R501 to R511). -/
structure PowerSt where
  goal     : Option Nat := none
  entry    : Nat := 2
  draining : List Nat := []
  queue    : List Nat := []
  mirror   : Map Word := []
  mirrorOps : List MirrorOp := []
  deriving DecidableEq, Repr

/-- An error record (R536). -/
structure ErrRec where
  seq  : Nat
  boots : Nat
  time : Nat
  kind : Nat
  cause : Nat
  inst : Nat
  unit : Nat
  addr : Nat
  deriving DecidableEq, Repr

/-- A requested test: kind, unit, and whether it is queued (1), running (2) or deferred (3) (R528). -/
structure TestSt where
  kind  : Nat
  index : Nat
  state : Nat
  deriving DecidableEq, Repr

/-- Safety: the records, the monitors' runs of bad windows and samples, the units' service, and the requested test
(R521 to R540). `out` is the renderer out of service in each set, `testing` whether its test runs;
`vddLow` is the VDD_CORE target that the lower fault limit follows (R524; 19_electrical.md);
`levels` holds the level sources of the chip ICU as last seen, `found` chip causes that the running command detected, each with its ADDR. `auditNext` is where the turn of the audits stands, `coreMark` the audit cores marked for a test
(R446, R447), `blitNext` the blit engine whose test comes next (R526). -/
structure SafetySt where
  recs      : List ErrRec := []
  head      : Nat := 0
  beat      : Bool := false
  clockBad  : Map Nat := []
  voltBad   : Map Nat := []
  vddLow    : Nat := 750
  avClock   : Bool := false
  tempWarn  : Bool := false
  halted    : List Nat := []
  faultN    : Bool := false
  rendOut   : List Nat := [4, 4, 4, 4]
  testing   : List Bool := [false, false, false, false]
  coreRet   : Nat := 0
  coreNext  : Nat := 0
  auditFrom : Nat := 0
  auditNext : Nat := 0
  coreMark  : List Nat := []
  blitNext  : Nat := 0
  test      : Option TestSt := none
  levels    : Nat := 0
  found     : List (Nat × Nat) := []
  tamperNow : List Bool := [false, false]
  deriving DecidableEq, Repr

/-- A pin between a change of its setting and the new setting (R548): the level it drove before, and the function that it
fed. -/
structure Leaving where
  drove : Option Bool
  fed   : Nat
  deriving DecidableEq, Repr

/-- The JTAG instructions (R554). -/
inductive JtagIr where
  | bypass | idcode | sample | extest | clamp | highz
  deriving DecidableEq, Repr

/-- Pins: the levels that the world outside gives to pins, the levels as sampled last, pins switching, the crossings of pins whose
handshake is open (REQ differs from ACK) with their accumulators, how far the lock
sequences of host and management have come, the straps as sampled, the HPD inputs, and the JTAG port: its instruction,
the captured and preloaded boundary chain, and what TDO shifts out (R515, R541 to R554). -/
structure PinSt where
  ext     : Nat := 0xFFFF00000000
  sampled : Nat := 0xFFFF00000000
  leaving : List (Nat × Leaving) := []
  cross   : List (Nat × Nat) := []
  hostSeq : Nat := 0
  mgtSeq  : Nat := 0
  straps  : Nat := 0
  hpd     : List Bool := [false, false]
  jtag    : JtagIr := .idcode
  capture : Nat := 0
  preload : Nat := 0
  tdo     : Word := 0
  held    : Nat := 0
  deriving DecidableEq, Repr

/-- A transaction-layer answer that a host access got (R466, R489). -/
inductive Tlp where
  | data (v : Nat)
  | done
  | unsupported
  | retry
  | poisoned
  deriving DecidableEq, Repr

/-- A PF mover descriptor in flight: its ring, its 32 bytes, the status that it has met so far (0 while it may still end
OK), the bytes that it has read, and whether its completion entry waits for room (R393 to R395, R495). -/
structure Desc where
  ring   : Nat
  desc   : List Byte
  status : Nat := 0
  data   : List Byte := []
  waits  : Bool := false
  deriving DecidableEq, Repr

/-- The host interface outside the VFs: Memory Space Enable and Bus Master Enable of the PF, its MSI-X table and pending
bits with MSI-X Enable and Function Mask, whether WAKE# is asserted (R507), NumVFs, the L1.2 enable, the link as negotiated, the errors reported, as function and
bit of the AER status, the AER severities (at reset the PCIe defaults, PRESUMED, log entry 13), the descriptors of the mover
rings in flight, the PF completion ring's phase and count, and the number of rung commands so far (R461 to R495, R391 to R398). -/
structure HostSt where
  mse     : Bool := false
  bme     : Bool := false
  msix    : Map Word := []
  pba     : Nat := 0
  msixOn  : Bool := false
  msixOff : Bool := false
  numVfs  : Nat := 0
  l12     : Bool := false
  wake    : Bool := false
  lanes   : Nat := 0
  rate    : Nat := 0
  linkUp  : Bool := false
  flit    : Bool := false
  aer     : List (Nat × Nat) := []
  severity : Word := 0x00462030
  descs   : List Desc := []
  cqPhase : Bool := true
  cqSeq   : Nat := 0
  orders  : Nat := 0
  deriving DecidableEq, Repr

/-- A row set aside from the instance's compressor queue: which instance, frame, line, and the set that takes it (R245). -/
structure CmpJob where
  inst  : Nat
  frame : Nat
  line  : Nat
  set   : Nat
  deriving DecidableEq, Repr

/-- The shared engines: compressor queues, renderers and blit engines with the work they hold, and the shared blit
queue in order (R23, R230, R245). `blit` maps an engine to instance and job, `blitQ` holds queued jobs, and `blitWait` those that
wait for a credit, oldest first. -/
structure EngineSt where
  cmpQ   : List CmpJob := []
  blit   : List (Nat × Nat × Nat) := []
  blitQ  : List (Nat × Nat) := []
  blitWait : List (Nat × Nat) := []
  inTest : List Nat := []
  seq    : Nat := 0
  deriving DecidableEq, Repr

/-- A resident leaf of the cartridge cache: extent, leaf, contents that differ from zero, dirty, pinned, and the order of
its last use (R424), with its words of one and of two corrupted bits (R417). -/
structure Leaf where
  extent : Nat
  leaf   : Nat
  cells  : Map Byte := []
  dirty  : Bool := false
  pinned : Bool := false
  use    : Nat := 0
  ce     : List Nat := []
  ue     : List Nat := []
  deriving DecidableEq, Repr

/-- The memories beside their bytes: check codes (words with one corrupted bit, and with two, which stay poisoned), the step of the
scrubbers of Vault and Extent Table SRAM, the bank groups whose free rows hold march patterns (R409), the Extent Table, its command with its age among the orders, the leaf cache, and the CRC64s kept of blocks whose leaves have gone (R406 to
R430, R439). -/
structure MemSt where
  poolCe  : List Nat := []
  poolUe  : List Nat := []
  hbmCe   : List Nat := []
  hbmUe   : List Nat := []
  extCe   : List Nat := []
  extUe   : List Nat := []
  sramRow : Nat := 0
  marched : List Nat := []
  ext     : Map Nat := []
  extCmd  : Option Nat := none
  extSeq  : Nat := 0
  leaves  : List Leaf := []
  useNo   : Nat := 0
  crcs    : List (Nat × Nat) := []
  deriving DecidableEq, Repr

/-- A monitor output (R269 to R275): the packet shown, as its instance and number in order of completion; the slot held; the
instance shown; the decoded picture and its class; whether the frame is black; the I2S queue, and the block that I2S sends; and the
wall time until which its FRAME_MARK is high (R546). -/
structure Monitor where
  showing : Option (Nat × Nat) := none
  holds   : Option (Nat × Nat) := none
  source  : Option Nat := none
  picture : List (List Nat) := []
  black   : Bool := true
  audio   : List (List Stereo) := []
  cls     : Nat := 0
  playing : Bool := false
  sending : List Stereo := []
  mark    : Nat := 0
  deriving DecidableEq, Repr

/-- What the device sent to the host: a posted write (requester, IOVA, bytes; requester 0 is the PF), or an MSI-X
message (function, vector, and the address and data of its table entry). -/
inductive Sent where
  | write (fn : Nat) (addr : Nat) (data : List Byte)
  | msix (fn : Nat) (vector : Nat) (addr : Nat) (data : Word)
  | wake
  deriving DecidableEq, Repr

end Sys2Proof.Machine
end

