-- ==== Sys2Proof/Machine/Regs.lean ====
section
/-! DEFINITION. Register access in general (00_scope.md, R3 to R9, R12): fields with their access types, clamping of
illegal values, and the reset word of a register. -/
namespace Sys2Proof.Machine

/-- The access types of R5. -/
inductive Acc where
  | rw | ro | wo | w1c | w1s | rc
  deriving DecidableEq, Repr

/-- Which values of a field are legal (R8): every value; a numeric range, outside which the nearest limit is taken; an
enumeration, outside which the reset value is taken; or the permutations of R185, likewise. -/
inductive Legal where
  | any
  | range (lo hi : Nat)
  | upTo (codes : List Nat)
  | perm
  deriving DecidableEq, Repr

/-- A field of a register table. -/
structure Fld where
  acc   : Acc
  hi    : Nat
  lo    : Nat
  reset : Nat
  legal : Legal := .any
  deriving DecidableEq, Repr

def Fld.rw (hi lo r : Nat) (l : Legal := .any) : Fld := ⟨.rw, hi, lo, r, l⟩
def Fld.ro (hi lo r : Nat) : Fld := ⟨.ro, hi, lo, r, .any⟩
def Fld.wo (hi lo r : Nat) : Fld := ⟨.wo, hi, lo, r, .any⟩
def Fld.w1c (hi lo r : Nat) : Fld := ⟨.w1c, hi, lo, r, .any⟩
def Fld.w1s (hi lo r : Nat) : Fld := ⟨.w1s, hi, lo, r, .any⟩
def Fld.rc (hi lo r : Nat) : Fld := ⟨.rc, hi, lo, r, .any⟩

/-- A register, or a replicated register of up to two dimensions, of a block's map (R12). `byIndex` marks a register
whose reset value has the item's first index added to it. -/
structure RegSpec where
  name    : String
  off     : Nat
  flds    : List Fld
  cnt     : Nat := 1
  stride  : Nat := 4
  cnt2    : Nat := 1
  stride2 : Nat := 4
  byIndex : Bool := false
  deriving DecidableEq, Repr

/-- The index of the item of `r` at offset `o`, if one lies there (R12). -/
def RegSpec.indexAt (r : RegSpec) (o : Nat) : Option Nat :=
  if o < r.off then none else
  let d := o - r.off
  let i := d / r.stride
  let e := d % r.stride
  if i < r.cnt && e % r.stride2 == 0 && e / r.stride2 < r.cnt2 then some i else none

/-- The register at offset `o` of a table, with its item's index (R4 where there is none). -/
def findReg : List RegSpec → Nat → Option (RegSpec × Nat)
  | [], _ => none
  | r :: rs, o => match r.indexAt o with
    | some i => some (r, i)
    | none => findReg rs o

/-- A field's bits put into a word. -/
def putField (w : Nat) (f : Fld) (v : Nat) : Nat := setBits w f.hi f.lo v

/-- The word a register holds after device reset (R10). -/
def RegSpec.resetWord (r : RegSpec) (i : Nat) : Word :=
  BitVec.ofNat 32 ((r.flds.foldl (fun w f => putField w f f.reset) 0) + (if r.byIndex then i % 256 else 0))

/-- The reset word at an offset of a table; an offset without a register holds 0. -/
def resetOf (t : List RegSpec) (o : Nat) : Word :=
  match findReg t o with
  | some (r, i) => r.resetWord i
  | none => 0

/-- A value of R185 names each of the eight layers once. -/
def isPerm8 (v : Nat) : Bool :=
  (List.range 8).all fun l => (List.range 8).any fun d => bits v (3 * d + 2) (3 * d) = l

/-- The value a field takes from a written value (R8). -/
def Legal.apply (l : Legal) (reset v : Nat) : Nat :=
  match l with
  | .any => v
  | .range lo hi => if v < lo then lo else if hi < v then hi else v
  | .upTo cs => if cs.contains v then v else reset
  | .perm => if isPerm8 v then v else reset

/-- One field of a write: the new word and the clamps so far (R5, R7, R8). A WO field holds nothing. -/
def Fld.write (f : Fld) (new : Nat) (st : Nat × Nat) : Nat × Nat :=
  let (w, k) := st
  let v := bits new f.hi f.lo
  match f.acc with
  | .rw =>
    let v' := f.legal.apply f.reset v
    (putField w f v', if v' = v then k else k + 1)
  | .w1c => (putField w f (Nat.xor (bits w f.hi f.lo) (Nat.land (bits w f.hi f.lo) v)), k)
  | .w1s => (putField w f (Nat.lor (bits w f.hi f.lo) v), k)
  | .ro | .wo | .rc => (w, k)

/-- A write of a whole register: the word it holds afterwards, and the number of fields clamped (R8). -/
def RegSpec.write (r : RegSpec) (old new : Word) : Word × Nat :=
  let (w, k) := r.flds.foldl (fun st f => f.write new.toNat st) (old.toNat, 0)
  (BitVec.ofNat 32 w, k)

/-- What a read leaves in a register: its RC fields are cleared (R5). -/
def RegSpec.readClear (r : RegSpec) (old : Word) : Word :=
  BitVec.ofNat 32 (r.flds.foldl (fun w f => if f.acc = .rc then putField w f 0 else w) old.toNat)

/-- A saturating count in bits [hi:lo] of a word (R9). -/
def countUp (w : Word) (hi lo k : Nat) : Word :=
  BitVec.ofNat 32 (setBits w.toNat hi lo (satAdd (2 ^ (hi - lo + 1) - 1) (bits w.toNat hi lo) k))

/-- Set bits of a word. -/
def orBits (w : Word) (m : Nat) : Word := w ||| BitVec.ofNat 32 m

/-- Clear bits of a word. -/
def clrBits (w : Word) (m : Nat) : Word := w &&& ~~~ BitVec.ofNat 32 m

/-- Put a value into bits [hi:lo] of a word. -/
def wset (w : Word) (hi lo v : Nat) : Word := BitVec.ofNat 32 (setBits w.toNat hi lo v)

/-- Bits [hi:lo] of a word. -/
def wbits (w : Word) (hi lo : Nat) : Nat := bits w.toNat hi lo

end Sys2Proof.Machine
end

