-- ==== Sys2Proof/Machine/RegTab.lean ====
section
/-! DEFINITION. The register tables of the chapters as data: for each register its offset (window offset, PF BAR0
offset or VF BAR2 offset), its fields from the top down with access type, bits, reset value and legal values, and its
replication (R12). A field marked IMG holds 0 from device reset (R10). -/
namespace Sys2Proof.Machine

/-- PF BAR0: the registers of the map under R51 (02_serfer_images.md). -/
def pfRegsR51 : List RegSpec :=
  [⟨"MGT_IMG_CTRL", 0x100000, [.rw 26 24 0, .wo 3 0 0], 1, 4, 1, 4, false⟩,
   ⟨"MGT_IMG_STATUS", 0x100004, [.ro 31 31 0, .ro 26 24 0, .ro 23 16 0, .ro 7 0 0], 1, 4, 1, 4, false⟩,
   ⟨"MGT_IMG_SRC_LO", 0x100008, [.rw 31 3 0], 1, 4, 1, 4, false⟩,
   ⟨"MGT_IMG_SRC_HI", 0x10000C, [.rw 31 0 0], 1, 4, 1, 4, false⟩,
   ⟨"MGT_IMG_LEN", 0x100010, [.rw 18 0 0 (.range 0 507904)], 1, 4, 1, 4, false⟩,
   ⟨"MGT_FUSE_ARM", 0x100014, [.wo 31 16 0, .rw 3 0 0], 1, 4, 1, 4, false⟩,
   ⟨"MGT_FUSE_COUNTS", 0x100018, [.ro 31 30 0, .ro 27 24 0, .ro 20 16 0, .ro 5 0 0], 1, 4, 1, 4, false⟩,
   ⟨"MGT_KEY_STATE", 0x10001C, [.ro 31 16 0, .ro 15 0 0], 1, 4, 1, 4, false⟩,
   ⟨"MGT_LOADED_ID_LO", 0x100020, [.ro 31 0 0], 1, 4, 1, 4, false⟩,
   ⟨"MGT_LOADED_ID_HI", 0x100024, [.ro 31 0 0], 1, 4, 1, 4, false⟩,
   ⟨"MGT_ADMIT", 0x100028, [.ro 31 30 3, .ro 25 16 0, .ro 9 0 0], 1, 4, 1, 4, false⟩,
   ⟨"MGT_SEALED", 0x10002C, [.ro 31 31 0, .ro 2 0 0], 1, 4, 1, 4, false⟩,
   ⟨"MGT_LOG_HEAD_LO", 0x100030, [.ro 31 0 0], 1, 4, 1, 4, false⟩,
   ⟨"MGT_LOG_HEAD_HI", 0x100034, [.ro 31 0 0], 1, 4, 1, 4, false⟩,
   ⟨"MGT_CLAMP_COUNT", 0x100038, [.rc 31 0 0], 1, 4, 1, 4, false⟩,
   ⟨"MGT_SLOT_INFO", 0x100040, [.ro 31 31 0, .ro 30 30 0, .ro 29 0 0], 8, 4, 1, 4, false⟩,
   ⟨"MGT_REPORT", 0x101000, [.ro 31 30 0, .ro 29 28 0, .ro 27 27 0, .ro 26 26 0, .ro 25 24 0, .ro 23 16 0, .ro 15 10 0, .ro 9 0 0], 512, 4, 1, 4, false⟩,
   ⟨"MGT_LOG", 0x120000, [.ro 31 0 0], 4096, 32, 8, 4, false⟩]

/-- Instance window: the registers of the map under R87 (03_virtual_time_beam.md). -/
def winRegsR87 : List RegSpec :=
  [⟨"VID_BEAM", 0x2000, [.ro 31 31 0, .ro 30 30 0, .ro 25 16 0, .ro 10 0 0], 1, 4, 1, 4, false⟩,
   ⟨"VID_LINE_VC", 0x2004, [.ro 11 0 0], 1, 4, 1, 4, false⟩,
   ⟨"VID_FRAME", 0x2008, [.ro 31 0 0], 1, 4, 1, 4, false⟩,
   ⟨"VID_VC_LO", 0x200C, [.ro 31 0 0], 1, 4, 1, 4, false⟩,
   ⟨"VID_VC_HI", 0x2010, [.ro 31 0 0], 1, 4, 1, 4, false⟩,
   ⟨"VID_TIMING", 0x2014, [.rw 23 16 0, .rw 5 0 0], 1, 4, 1, 4, false⟩,
   ⟨"VID_TIMING_STATUS", 0x2018, [.ro 23 16 0, .ro 6 6 0, .ro 5 0 0], 1, 4, 1, 4, false⟩]

/-- PF BAR0: the registers of the map under R111 (03_virtual_time_beam.md). -/
def pfRegsR111 : List RegSpec :=
  [⟨"VID_SCH_STATUS", 0x200000, [.ro 20 16 0x10, .ro 15 0 0], 1, 4, 1, 4, false⟩,
   ⟨"VID_SCH_LATE_TOTAL", 0x200004, [.rc 31 0 0], 1, 4, 1, 4, false⟩,
   ⟨"VID_SCH_CLAMP_COUNT", 0x200008, [.rc 31 0 0], 1, 4, 1, 4, false⟩,
   ⟨"VID_PACE_CTRL", 0x201000, [.wo 31 31 0, .rw 1 0 0 (.upTo [0, 1, 2])], 512, 32, 1, 4, false⟩,
   ⟨"VID_PACE_SLACK", 0x201004, [.rw 15 0 0x3E8 (.range 0 16000)], 512, 32, 1, 4, false⟩,
   ⟨"VID_PACE_STATUS", 0x201008, [.rc 31 16 0, .rc 15 0 0], 512, 32, 1, 4, false⟩,
   ⟨"VID_LATE_LINES", 0x20100C, [.rc 31 0 0], 512, 32, 1, 4, false⟩,
   ⟨"VID_FENCE_STALLS", 0x201010, [.rc 31 0 0], 512, 32, 1, 4, false⟩]

/-- Instance window: the registers of the map under R126 (04_tile_planes_sprites.md). -/
def winRegsR126 : List RegSpec :=
  [⟨"VID_PAL_BASE", 0x2040, [.rw 15 0 0], 1, 4, 1, 4, false⟩,
   ⟨"VID_STATUS", 0x2044, [.w1c 5 5 0, .w1c 4 4 0, .w1c 3 0 0], 1, 4, 1, 4, false⟩,
   ⟨"VID_CLAMP_COUNT", 0x2048, [.rc 31 0 0], 1, 4, 1, 4, false⟩,
   ⟨"VID_TP_CTRL", 0x2080, [.rw 19 16 0, .rw 9 8 0 (.upTo [0, 1, 2]), .rw 7 6 0 (.upTo [0, 1, 2]), .rw 2 2 0, .rw 1 1 0, .rw 0 0 0], 4, 16, 1, 4, false⟩,
   ⟨"VID_TP_MAP_BASE", 0x2084, [.rw 15 0 0], 4, 16, 1, 4, false⟩,
   ⟨"VID_TP_PAT_BASE", 0x2088, [.rw 15 0 0], 4, 16, 1, 4, false⟩,
   ⟨"VID_TP_SCROLL", 0x208C, [.rw 25 16 0, .rw 9 0 0], 4, 16, 1, 4, false⟩,
   ⟨"SPR_CTRL", 0x2100, [.rw 22 16 0x50 (.range 1 80), .rw 14 8 0x40 (.range 1 64), .rw 0 0 0], 1, 4, 1, 4, false⟩,
   ⟨"SPR_SAT_BASE", 0x2104, [.rw 15 0 0], 1, 4, 1, 4, false⟩,
   ⟨"SPR_PAT_BASE", 0x2108, [.rw 15 0 0], 1, 4, 1, 4, false⟩,
   ⟨"SPR_COLL_CTRL", 0x210C, [.rw 4 4 0, .rw 3 0 0], 1, 4, 1, 4, false⟩,
   ⟨"SPR_STATUS", 0x2110, [.w1c 3 3 0, .w1c 2 2 0, .w1c 1 1 0, .w1c 0 0 0], 1, 4, 1, 4, false⟩,
   ⟨"SPR_LINE_STATUS", 0x2114, [.ro 31 22 0, .ro 20 14 0, .ro 10 0 0], 1, 4, 1, 4, false⟩,
   ⟨"SPR_LINE_FLAGS", 0x2118, [.ro 10 10 0, .ro 9 9 0, .ro 8 8 0, .ro 7 0 0], 1, 4, 1, 4, false⟩,
   ⟨"SPR_COLL_POS", 0x211C, [.ro 25 16 0, .ro 9 0 0], 1, 4, 1, 4, false⟩,
   ⟨"SPR_COLL_PAIR", 0x2120, [.ro 16 16 0, .ro 15 8 0, .ro 7 0 0], 1, 4, 1, 4, false⟩]

/-- Instance window: the registers of the map under R157 (05_cue_lists_raster.md). -/
def winRegsR157 : List RegSpec :=
  [⟨"CUE_CTRL", 0x2800, [.rw 3 0 0], 1, 4, 1, 4, false⟩,
   ⟨"CUE_STATUS", 0x2804, [.w1c 3 3 0, .w1c 2 2 0, .w1c 1 1 0, .w1c 0 0 0], 1, 4, 1, 4, false⟩,
   ⟨"CUE_CLAMP_COUNT", 0x2808, [.rc 31 0 0], 1, 4, 1, 4, false⟩,
   ⟨"CUE_LIST_BASE", 0x2810, [.rw 15 0 0], 4, 4, 1, 4, false⟩,
   ⟨"CUE_CURSOR", 0x2820, [.ro 10 0 0], 4, 4, 1, 4, false⟩,
   ⟨"CUE_SCROLL", 0x2830, [.rw 31 30 0, .rw 29 29 0, .rw 25 16 0, .rw 15 0 0], 4, 4, 1, 4, false⟩,
   ⟨"CUE_WIN", 0x2840, [.rw 31 31 0, .rw 25 16 0, .rw 9 0 0], 2, 4, 1, 4, false⟩,
   ⟨"CUE_WIN_MASK", 0x2848, [.rw 23 16 0, .rw 15 8 0, .rw 7 0 0], 1, 4, 1, 4, false⟩]

/-- Instance window: the registers of the map under R178 (06_composition.md). -/
def winRegsR178 : List RegSpec :=
  [⟨"CMP_CTRL", 0x3000, [.rw 1 1 0, .rw 0 0 0], 1, 4, 1, 4, false⟩,
   ⟨"CMP_BG", 0x3004, [.rw 23 0 0], 1, 4, 1, 4, false⟩,
   ⟨"CMP_ORDER", 0x3008, [.rw 23 0 0xFAC688 (.perm)], 1, 4, 1, 4, false⟩,
   ⟨"CMP_COMMIT", 0x300C, [.wo 0 0 0], 1, 4, 1, 4, false⟩,
   ⟨"CMP_STATUS", 0x3010, [.ro 15 15 0, .w1c 6 6 0, .w1c 5 4 0, .w1c 3 2 0, .w1c 1 0 0], 1, 4, 1, 4, false⟩,
   ⟨"CMP_COMMIT_FRAME", 0x3014, [.ro 31 0 0], 1, 4, 1, 4, false⟩,
   ⟨"CMP_CLAMP_COUNT", 0x3018, [.rc 31 0 0], 1, 4, 1, 4, false⟩,
   ⟨"CMP_CAP_CTRL", 0x3020, [.rw 3 2 0 (.upTo [0, 1, 2]), .rw 1 1 0, .rw 0 0 0], 1, 4, 1, 4, false⟩,
   ⟨"CMP_CAP_SURF", 0x3024, [.rw 27 16 0, .rw 15 0 0], 1, 4, 1, 4, false⟩,
   ⟨"CMP_L_CTRL", 0x3100, [.rw 31 24 0xFF, .rw 21 20 0, .rw 18 18 0, .rw 17 16 0, .rw 15 12 0 (.upTo [0, 1, 2, 3, 4, 5, 6]), .rw 6 4 0, .rw 0 0 0], 1, 4, 1, 4, false⟩,
   ⟨"CMP_L_CTRL", 0x3120, [.rw 31 24 0xFF, .rw 21 20 0, .rw 18 18 0, .rw 17 16 0, .rw 15 12 0 (.upTo [0, 1, 2, 3, 4, 5, 6]), .rw 6 4 1, .rw 0 0 0], 1, 4, 1, 4, false⟩,
   ⟨"CMP_L_CTRL", 0x3140, [.rw 31 24 0xFF, .rw 21 20 0, .rw 18 18 0, .rw 17 16 0, .rw 15 12 0 (.upTo [0, 1, 2, 3, 4, 5, 6]), .rw 6 4 2, .rw 0 0 0], 1, 4, 1, 4, false⟩,
   ⟨"CMP_L_CTRL", 0x3160, [.rw 31 24 0xFF, .rw 21 20 0, .rw 18 18 0, .rw 17 16 0, .rw 15 12 0 (.upTo [0, 1, 2, 3, 4, 5, 6]), .rw 6 4 3, .rw 0 0 0], 1, 4, 1, 4, false⟩,
   ⟨"CMP_L_CTRL", 0x3180, [.rw 31 24 0xFF, .rw 21 20 0, .rw 18 18 0, .rw 17 16 0, .rw 15 12 0 (.upTo [0, 1, 2, 3, 4, 5, 6]), .rw 6 4 4, .rw 0 0 0], 1, 4, 1, 4, false⟩,
   ⟨"CMP_L_CTRL", 0x31A0, [.rw 31 24 0xFF, .rw 21 20 0, .rw 18 18 0, .rw 17 16 0, .rw 15 12 0 (.upTo [0, 1, 2, 3, 4, 5, 6]), .rw 6 4 5, .rw 0 0 0], 1, 4, 1, 4, false⟩,
   ⟨"CMP_L_CTRL", 0x31C0, [.rw 31 24 0xFF, .rw 21 20 0, .rw 18 18 0, .rw 17 16 0, .rw 15 12 0 (.upTo [0, 1, 2, 3, 4, 5, 6]), .rw 6 4 6, .rw 0 0 0], 1, 4, 1, 4, false⟩,
   ⟨"CMP_L_CTRL", 0x31E0, [.rw 31 24 0xFF, .rw 21 20 0, .rw 18 18 0, .rw 17 16 0, .rw 15 12 0 (.upTo [0, 1, 2, 3, 4, 5, 6]), .rw 6 4 7, .rw 0 0 0], 1, 4, 1, 4, false⟩,
   ⟨"CMP_L_POS", 0x3104, [.rw 27 16 0, .rw 11 0 0], 8, 32, 1, 4, false⟩,
   ⟨"CMP_L_SIZE", 0x3108, [.rw 26 16 0x7FF, .rw 10 0 0x7FF], 8, 32, 1, 4, false⟩,
   ⟨"CMP_L_SURF", 0x310C, [.rw 27 16 0, .rw 15 0 0], 8, 32, 1, 4, false⟩] ++
  [⟨"CMP_L_SRC_POS", 0x3110, [.rw 28 16 0, .rw 12 0 0], 8, 32, 1, 4, false⟩,
   ⟨"CMP_L_SRC_SIZE", 0x3114, [.rw 27 16 1 (.range 1 4095), .rw 12 0 1 (.range 1 8191)], 8, 32, 1, 4, false⟩]

/-- Instance window: the registers of the map under R211 (07_blitter.md). -/
def winRegsR211 : List RegSpec :=
  [⟨"BLT_CTRL", 0x3800, [.rw 8 8 0, .rw 5 4 0 (.upTo [0, 1, 2]), .rw 2 0 0 (.upTo [0, 1, 2, 3, 4, 5, 6])], 1, 4, 1, 4, false⟩,
   ⟨"BLT_SRC_SURF", 0x3804, [.rw 27 16 0, .rw 15 0 0], 1, 4, 1, 4, false⟩,
   ⟨"BLT_SRC_POS", 0x3808, [.rw 28 16 0, .rw 12 0 0], 1, 4, 1, 4, false⟩,
   ⟨"BLT_DST_SURF", 0x380C, [.rw 27 16 0, .rw 15 0 0], 1, 4, 1, 4, false⟩,
   ⟨"BLT_DST_POS", 0x3810, [.rw 28 16 0, .rw 12 0 0], 1, 4, 1, 4, false⟩,
   ⟨"BLT_SIZE", 0x3814, [.rw 27 16 0, .rw 12 0 0], 1, 4, 1, 4, false⟩,
   ⟨"BLT_FILL", 0x3818, [.rw 31 0 0], 1, 4, 1, 4, false⟩,
   ⟨"BLT_WM", 0x381C, [.rw 25 16 0, .rw 11 0 0], 1, 4, 1, 4, false⟩,
   ⟨"BLT_SCRATCH", 0x3820, [.rw 3 3 0, .rw 2 0 0], 1, 4, 1, 4, false⟩,
   ⟨"BLT_SUBMIT", 0x3824, [.wo 0 0 0], 1, 4, 1, 4, false⟩,
   ⟨"BLT_STATUS", 0x3828, [.ro 31 16 0, .ro 11 8 0, .w1c 3 3 0, .w1c 2 2 0, .w1c 1 1 0, .ro 0 0 0], 1, 4, 1, 4, false⟩,
   ⟨"BLT_SUBMIT_SEQ", 0x382C, [.ro 15 0 0], 1, 4, 1, 4, false⟩,
   ⟨"BLT_CLAMP_COUNT", 0x3830, [.rc 31 0 0], 1, 4, 1, 4, false⟩]

/-- Instance window: the registers of the map under R251 (08_stream_output.md). -/
def winRegsR251 : List RegSpec :=
  [⟨"STR_CTRL", 0x7000, [.rw 0 0 0], 1, 4, 1, 4, false⟩,
   ⟨"STR_STATUS", 0x7004, [.ro 31 31 0, .ro 26 24 0, .ro 3 3 0, .w1c 2 2 0, .w1c 1 1 0, .w1c 0 0 0], 1, 4, 1, 4, false⟩,
   ⟨"STR_DROPPED", 0x7008, [.rc 31 0 0], 1, 4, 1, 4, false⟩,
   ⟨"STR_LAST_FRAME_LO", 0x700C, [.ro 31 0 0], 1, 4, 1, 4, false⟩,
   ⟨"STR_LAST_FRAME_HI", 0x7010, [.ro 31 0 0], 1, 4, 1, 4, false⟩]

/-- PF BAR0: the registers of the map under R267 (08_stream_output.md). -/
def pfRegsR267 : List RegSpec :=
  [⟨"STR_CMP_STATUS", 0x400000, [.ro 31 31 0, .ro 5 0 0], 4, 4, 1, 4, false⟩,
   ⟨"STR_INST_CFG", 0x401000, [.rw 0 0 0], 512, 16, 1, 4, false⟩,
   ⟨"STR_FLASH", 0x401004, [.rc 31 16 0, .ro 8 0 0x100], 512, 16, 1, 4, false⟩,
   ⟨"STR_SIG", 0x401008, [.ro 31 0 0], 512, 16, 1, 4, false⟩,
   ⟨"DPO_CTRL", 0x404000, [.rw 31 31 0, .rw 24 16 0], 2, 16, 1, 4, false⟩,
   ⟨"DPO_STATUS", 0x404004, [.ro 31 31 0, .ro 30 30 0, .ro 29 29 0, .ro 28 28 0, .ro 22 20 0, .ro 19 16 0, .rc 15 0 0], 2, 16, 1, 4, false⟩,
   ⟨"DPO_I2S", 0x404008, [.rc 31 16 0, .rc 15 0 0], 2, 16, 1, 4, false⟩]

/-- Instance window: the registers of the map under R280 (09_audio.md). -/
def winRegsR280 : List RegSpec :=
  [⟨"AUD_CTRL", 0x4000, [.rw 2 2 0, .rw 1 1 1, .rw 0 0 1], 1, 4, 1, 4, false⟩,
   ⟨"AUD_STATUS", 0x4004, [.w1c 31 16 0, .w1c 1 1 0, .w1c 0 0 0], 1, 4, 1, 4, false⟩,
   ⟨"AUD_CLAMP_COUNT", 0x4008, [.rc 31 0 0], 1, 4, 1, 4, false⟩,
   ⟨"AUD_SAMPLE_LO", 0x400C, [.ro 31 0 0], 1, 4, 1, 4, false⟩,
   ⟨"AUD_SAMPLE_HI", 0x4010, [.ro 31 0 0], 1, 4, 1, 4, false⟩,
   ⟨"AUD_BUS", 0x4020, [.rw 31 31 1, .ro 20 16 0, .rw 15 0 0x8000 (.range 0 32768)], 4, 4, 1, 4, false⟩,
   ⟨"AUD_FILT_CTRL", 0x4040, [.rw 1 0 0], 1, 4, 1, 4, false⟩,
   ⟨"AUD_FILT_COEF", 0x4044, [.rw 31 16 0x4000 (.range 0 32767), .rw 15 0 0x2000 (.range 0 32767)], 1, 4, 1, 4, false⟩,
   ⟨"AUD_ECHO_CTRL", 0x4050, [.rw 31 31 0, .rw 15 0 0x2EE0 (.range 1 65535)], 1, 4, 1, 4, false⟩,
   ⟨"AUD_ECHO_MIX", 0x4054, [.rw 31 16 0x2000, .rw 15 0 0x4000], 1, 4, 1, 4, false⟩,
   ⟨"AUD_ECHO_DRY", 0x4058, [.rw 15 0 0x7FFF], 1, 4, 1, 4, false⟩,
   ⟨"AUD_V_CTRL", 0x4100, [.rw 31 31 0, .wo 30 30 0, .rw 23 16 0x80, .rw 13 12 0, .rw 9 8 0, .rw 5 5 0, .rw 4 4 0, .rw 3 3 0], 16, 64, 1, 4, false⟩,
   ⟨"AUD_V_FREQ", 0x4104, [.rw 31 0 0], 16, 64, 1, 4, false⟩,
   ⟨"AUD_V_VOL", 0x4108, [.rw 15 8 0xFF, .rw 7 0 0xFF], 16, 64, 1, 4, false⟩,
   ⟨"AUD_V_ENV", 0x410C, [.rw 23 16 0, .rw 15 8 0, .rw 7 0 0], 16, 64, 1, 4, false⟩,
   ⟨"AUD_V_ADDR", 0x4110, [.rw 24 0 0], 16, 64, 1, 4, false⟩,
   ⟨"AUD_V_LEN", 0x4114, [.rw 23 0 0], 16, 64, 1, 4, false⟩,
   ⟨"AUD_V_LOOP", 0x4118, [.rw 23 0 0], 16, 64, 1, 4, false⟩,
   ⟨"AUD_V_POS", 0x411C, [.ro 31 0 0], 16, 64, 1, 4, false⟩]

/-- Instance window: the registers of the map under R339 (10_cymal_isa.md). -/
def winRegsR339 : List RegSpec :=
  [⟨"INST_THREAD_CTRL", 0x0, [.rw 3 0 1], 1, 4, 1, 4, false⟩,
   ⟨"INST_THREAD_STATUS", 0x4, [.w1c 11 8 0, .ro 7 4 0], 1, 4, 1, 4, false⟩,
   ⟨"INST_RESET_PC", 0x8, [.rw 31 2 0], 1, 4, 1, 4, false⟩,
   ⟨"INST_TVEC", 0xC, [.rw 31 8 1], 1, 4, 1, 4, false⟩,
   ⟨"INST_CORE_CLAMP_COUNT", 0x10, [.rc 31 0 0], 1, 4, 1, 4, false⟩,
   ⟨"INST_START_PC", 0x20, [.rw 31 2 0], 4, 4, 1, 4, false⟩,
   ⟨"SEG_BASE", 0x100, [.rw 31 0 0], 8, 16, 1, 4, false⟩,
   ⟨"SEG_LIMIT", 0x104, [.rw 31 0 0xFFFFFF], 1, 4, 1, 4, false⟩,
   ⟨"SEG_LIMIT", 0x114, [.rw 31 0 0], 1, 4, 1, 4, false⟩,
   ⟨"SEG_LIMIT", 0x124, [.rw 31 0 0], 1, 4, 1, 4, false⟩,
   ⟨"SEG_LIMIT", 0x134, [.rw 31 0 0x7FFF], 1, 4, 1, 4, false⟩,
   ⟨"SEG_LIMIT", 0x144, [.rw 31 0 0], 1, 4, 1, 4, false⟩,
   ⟨"SEG_LIMIT", 0x154, [.rw 31 0 0], 1, 4, 1, 4, false⟩,
   ⟨"SEG_LIMIT", 0x164, [.rw 31 0 0], 1, 4, 1, 4, false⟩,
   ⟨"SEG_LIMIT", 0x174, [.rw 31 0 0], 1, 4, 1, 4, false⟩,
   ⟨"SEG_CTRL", 0x108, [.rw 6 4 1 (.upTo [0, 1, 2, 3, 4]), .rw 2 2 1, .rw 1 1 0, .rw 0 0 1], 1, 4, 1, 4, false⟩,
   ⟨"SEG_CTRL", 0x118, [.rw 6 4 2 (.upTo [0, 1, 2, 3, 4]), .rw 2 2 0, .rw 1 1 1, .rw 0 0 1], 1, 4, 1, 4, false⟩,
   ⟨"SEG_CTRL", 0x128, [.rw 6 4 3 (.upTo [0, 1, 2, 3, 4]), .rw 2 2 0, .rw 1 1 1, .rw 0 0 1], 1, 4, 1, 4, false⟩,
   ⟨"SEG_CTRL", 0x138, [.rw 6 4 4 (.upTo [0, 1, 2, 3, 4]), .rw 2 2 0, .rw 1 1 1, .rw 0 0 1], 1, 4, 1, 4, false⟩,
   ⟨"SEG_CTRL", 0x148, [.rw 6 4 0 (.upTo [0, 1, 2, 3, 4]), .rw 2 2 0, .rw 1 1 0, .rw 0 0 0], 1, 4, 1, 4, false⟩] ++
  [⟨"SEG_CTRL", 0x158, [.rw 6 4 0 (.upTo [0, 1, 2, 3, 4]), .rw 2 2 0, .rw 1 1 0, .rw 0 0 0], 1, 4, 1, 4, false⟩,
   ⟨"SEG_CTRL", 0x168, [.rw 6 4 0 (.upTo [0, 1, 2, 3, 4]), .rw 2 2 0, .rw 1 1 0, .rw 0 0 0], 1, 4, 1, 4, false⟩,
   ⟨"SEG_CTRL", 0x178, [.rw 6 4 0 (.upTo [0, 1, 2, 3, 4]), .rw 2 2 0, .rw 1 1 0, .rw 0 0 0], 1, 4, 1, 4, false⟩,
   ⟨"INST_T_PC", 0x400, [.rw 31 1 0], 4, 256, 1, 4, false⟩,
   ⟨"INST_T_STAT", 0x404, [.ro 1 1 0, .ro 0 0 0], 4, 256, 1, 4, false⟩,
   ⟨"INST_T_EPC", 0x408, [.rw 31 1 0], 4, 256, 1, 4, false⟩,
   ⟨"INST_T_TRAPINFO", 0x40C, [.ro 31 0 0], 4, 256, 1, 4, false⟩,
   ⟨"INST_T_TRAPCAUSE", 0x410, [.ro 11 9 0, .ro 8 8 0, .ro 7 0 0], 4, 256, 1, 4, false⟩,
   ⟨"INST_T_TRAPADDR", 0x414, [.ro 31 0 0], 4, 256, 1, 4, false⟩,
   ⟨"INST_T_SCRATCH0", 0x418, [.rw 31 0 0], 4, 256, 1, 4, false⟩,
   ⟨"INST_T_SCRATCH1", 0x41C, [.rw 31 0 0], 4, 256, 1, 4, false⟩,
   ⟨"INST_T_G", 0x480, [.rw 31 0 0], 4, 256, 32, 4, false⟩,
   ⟨"INST_PRESENCE", 0xFFC, [.ro 31 30 0, .ro 29 28 0, .ro 27 27 0, .ro 26 26 0, .ro 25 24 0, .ro 23 16 0, .ro 15 10 0, .ro 9 0 0], 1, 4, 1, 4, false⟩]

/-- Instance window: the registers of the map under R346 (11_interrupts_timers_events.md). -/
def winRegsR346 : List RegSpec :=
  [⟨"ICU_CLAIM", 0x1000, [.ro 31 31 0, .ro 5 0 0], 1, 4, 1, 4, false⟩,
   ⟨"ICU_EOI", 0x1004, [.wo 5 0 0], 1, 4, 1, 4, false⟩,
   ⟨"ICU_SWINT_SET", 0x1008, [.w1s 7 0 0], 1, 4, 1, 4, false⟩,
   ⟨"ICU_SWINT_CLR", 0x100C, [.w1c 7 0 0], 1, 4, 1, 4, false⟩,
   ⟨"ICU_PENDING_LO", 0x1010, [.w1c 31 0 0], 1, 4, 1, 4, false⟩,
   ⟨"ICU_PENDING_HI", 0x1014, [.w1c 31 0 0], 1, 4, 1, 4, false⟩,
   ⟨"ICU_INSERV_LO", 0x1018, [.ro 31 0 0], 1, 4, 1, 4, false⟩,
   ⟨"ICU_INSERV_HI", 0x101C, [.ro 31 0 0], 1, 4, 1, 4, false⟩,
   ⟨"ICU_CLAMP_COUNT", 0x1020, [.rc 31 0 0], 1, 4, 1, 4, false⟩,
   ⟨"ICU_T_CTRL", 0x1040, [.ro 14 12 0, .ro 10 8 0, .rw 2 0 0], 4, 4, 1, 4, false⟩,
   ⟨"ICU_SRC_CFG", 0x1100, [.rw 11 8 1, .rw 5 4 0 (.upTo [0, 1, 2]), .rw 2 0 0], 64, 4, 1, 4, false⟩,
   ⟨"TIM_CTRL", 0x1400, [.rw 31 16 0, .rw 5 4 0 (.upTo [0, 1]), .rw 3 2 0 (.upTo [0, 1, 2]), .rw 0 0 0], 4, 32, 1, 4, false⟩,
   ⟨"TIM_COUNT", 0x1404, [.rw 31 0 0], 4, 32, 1, 4, false⟩,
   ⟨"TIM_TOP", 0x1408, [.rw 31 0 0xFFFFFFFF], 4, 32, 1, 4, false⟩,
   ⟨"TIM_CMP", 0x140C, [.rw 31 0 0xFFFFFFFF], 4, 32, 1, 4, false⟩,
   ⟨"TIM_CAPT", 0x1410, [.ro 31 0 0], 4, 32, 1, 4, false⟩,
   ⟨"TIM_STATUS", 0x1414, [.ro 4 4 0, .w1c 3 3 0, .w1c 2 2 0, .w1c 1 1 0, .w1c 0 0 0], 4, 32, 1, 4, false⟩,
   ⟨"BTIM_CTRL", 0x1500, [.rw 0 0 0], 4, 8, 1, 4, false⟩,
   ⟨"BTIM_AT", 0x1504, [.rw 25 16 0, .rw 10 0 0], 4, 8, 1, 4, false⟩,
   ⟨"BTIM_STATUS", 0x1540, [.w1c 3 0 0], 1, 4, 1, 4, false⟩] ++
  [⟨"TIM_CLAMP_COUNT", 0x1580, [.rc 31 0 0], 1, 4, 1, 4, false⟩,
   ⟨"EVT_ROUTE", 0x6000, [.rw 5 0 0 (.upTo (List.range 44))], 33, 4, 1, 4, false⟩,
   ⟨"EVT_SW", 0x6100, [.wo 3 0 0], 1, 4, 1, 4, false⟩,
   ⟨"EVT_CLAMP_COUNT", 0x6104, [.rc 31 0 0], 1, 4, 1, 4, false⟩]

/-- Instance window: the registers of the map under R377 (12_dma.md). -/
def winRegsR377 : List RegSpec :=
  [⟨"DMA_CTRL", 0x1800, [.rw 14 12 0, .rw 10 8 0, .rw 5 4 0, .wo 0 0 0], 4, 32, 1, 4, false⟩,
   ⟨"DMA_SRC", 0x1804, [.rw 31 0 0], 4, 32, 1, 4, false⟩,
   ⟨"DMA_DST", 0x1808, [.rw 31 0 0], 4, 32, 1, 4, false⟩,
   ⟨"DMA_COUNT", 0x180C, [.rw 24 0 0], 4, 32, 1, 4, false⟩,
   ⟨"DMA_STATUS", 0x1810, [.ro 11 8 0, .ro 4 4 0, .w1c 3 3 0, .w1c 1 1 0, .ro 0 0 0], 4, 32, 1, 4, false⟩,
   ⟨"DMA_ERR_ADDR", 0x1814, [.ro 31 0 0], 4, 32, 1, 4, false⟩,
   ⟨"DMA_CLAMP_COUNT", 0x1880, [.rc 31 0 0], 1, 4, 1, 4, false⟩]

/-- PF BAR0: the registers of the map under R396 (12_dma.md). -/
def pfRegsR396 : List RegSpec :=
  [⟨"HST_MV_CH_STATUS", 0x880000, [.ro 31 31 0, .ro 30 30 0, .ro 29 29 0, .ro 8 0 0], 24, 4, 1, 4, false⟩,
   ⟨"HST_MV_RING_LO", 0x880100, [.rw 31 12 0], 4, 32, 1, 4, false⟩,
   ⟨"HST_MV_RING_HI", 0x880104, [.rw 31 0 0], 4, 32, 1, 4, false⟩,
   ⟨"HST_MV_RING_SIZE", 0x880108, [.rw 4 0 4 (.range 4 16)], 4, 32, 1, 4, false⟩,
   ⟨"HST_MV_TAIL", 0x88010C, [.rw 15 0 0], 4, 32, 1, 4, false⟩,
   ⟨"HST_MV_HEAD", 0x880110, [.ro 15 0 0], 4, 32, 1, 4, false⟩,
   ⟨"HST_MV_RING_CTRL", 0x880114, [.w1c 8 8 0, .rw 1 1 0, .rw 0 0 0], 4, 32, 1, 4, false⟩,
   ⟨"HST_MV_CLAMP_COUNT", 0x880200, [.rc 31 0 0], 1, 4, 1, 4, false⟩]

/-- PF BAR0: the registers of the map under R410 (13_memory.md). -/
def pfRegsR410 : List RegSpec :=
  [⟨"POOL_ECC_CTRL", 0x500000, [.rw 31 16 0x100, .wo 1 1 0, .wo 0 0 0], 1, 4, 1, 4, false⟩,
   ⟨"POOL_INJ_ADDR", 0x500004, [.rw 26 3 0], 1, 4, 1, 4, false⟩,
   ⟨"POOL_CE_COUNT", 0x500008, [.rc 31 0 0], 1, 4, 1, 4, false⟩,
   ⟨"POOL_UE_COUNT", 0x50000C, [.rc 31 0 0], 1, 4, 1, 4, false⟩,
   ⟨"POOL_ERR_ADDR", 0x500010, [.ro 26 3 0], 1, 4, 1, 4, false⟩,
   ⟨"POOL_ERR_INFO", 0x500014, [.w1c 31 31 0, .ro 30 30 0, .ro 29 28 0, .w1c 27 27 0, .ro 26 26 0, .ro 24 16 0], 1, 4, 1, 4, false⟩,
   ⟨"POOL_SCRUB_STATUS", 0x500018, [.ro 31 16 0, .ro 12 0 0], 1, 4, 1, 4, false⟩,
   ⟨"POOL_COLLIDED_COUNT", 0x50001C, [.rc 31 0 0], 1, 4, 1, 4, false⟩,
   ⟨"POOL_VAULT_STATUS", 0x500020, [.ro 31 30 0, .ro 16 16 0, .ro 15 8 0], 1, 4, 1, 4, false⟩,
   ⟨"POOL_QUOTA", 0x501000, [.ro 28 16 0, .ro 4 0 0], 512, 4, 1, 4, false⟩]

/-- PF BAR0: the registers of the map under R419 (13_memory.md). -/
def pfRegsR419 : List RegSpec :=
  [⟨"HBM_STATUS", 0x600000, [.ro 31 31 0, .ro 30 30 0, .ro 7 0 0], 1, 4, 1, 4, false⟩,
   ⟨"HBM_ECC_CTRL", 0x600004, [.rw 31 16 0x100], 1, 4, 1, 4, false⟩,
   ⟨"HBM_CE_COUNT", 0x600008, [.rc 31 0 0], 1, 4, 1, 4, false⟩,
   ⟨"HBM_UE_COUNT", 0x60000C, [.rc 31 0 0], 1, 4, 1, 4, false⟩,
   ⟨"HBM_ERR_ADDR_LO", 0x600010, [.ro 31 3 0], 1, 4, 1, 4, false⟩,
   ⟨"HBM_ERR_ADDR_HI", 0x600014, [.ro 3 0 0], 1, 4, 1, 4, false⟩,
   ⟨"HBM_ERR_INFO", 0x600018, [.w1c 31 31 0, .ro 30 30 0, .ro 29 28 0, .w1c 27 27 0, .ro 26 26 0, .ro 24 16 0], 1, 4, 1, 4, false⟩,
   ⟨"HBM_REGION_BASE", 0x600100, [.ro 19 0 0], 7, 4, 1, 4, false⟩,
   ⟨"HBM_INST_WORK", 0x601000, [.ro 19 0 0], 512, 16, 1, 4, false⟩,
   ⟨"HBM_INST_STREAM", 0x601004, [.ro 19 0 0], 512, 16, 1, 4, false⟩,
   ⟨"HBM_INST_INDEX", 0x601008, [.ro 31 31 0, .ro 8 0 0], 512, 16, 1, 4, false⟩]

/-- PF BAR0: the registers of the map under R428 (13_memory.md). -/
def pfRegsR428 : List RegSpec :=
  [⟨"EXT_CMD", 0x700000, [.wo 31 28 0, .rw 16 0 0], 1, 4, 1, 4, false⟩,
   ⟨"EXT_CMD_STATUS", 0x700004, [.ro 31 31 0, .ro 3 0 0], 1, 4, 1, 4, false⟩,
   ⟨"EXT_WIN_SEL", 0x700008, [.rw 1 0 0], 1, 4, 1, 4, false⟩,
   ⟨"EXT_CACHE_FRAMES", 0x70000C, [.ro 19 0 0], 1, 4, 1, 4, false⟩,
   ⟨"EXT_CACHE_DIRTY", 0x700010, [.ro 19 0 0], 1, 4, 1, 4, false⟩,
   ⟨"EXT_CLAMP_COUNT", 0x700014, [.rc 31 0 0], 1, 4, 1, 4, false⟩,
   ⟨"EXT_STAGE", 0x700020, [.rw 31 0 0], 4, 4, 1, 4, false⟩,
   ⟨"EXT_SPAN_FIRST", 0x701000, [.rw 16 0 0], 512, 8, 1, 4, false⟩,
   ⟨"EXT_SPAN_COUNT", 0x701004, [.rw 17 0 0], 512, 8, 1, 4, false⟩,
   ⟨"EXT_FAULT", 0x702000, [.w1c 4 4 0, .w1c 3 3 0, .w1c 2 2 0, .w1c 1 1 0, .w1c 0 0 0], 512, 4, 1, 4, false⟩]

/-- Instance window: the registers of the map under R431 (14_checkpoints_ladder.md). -/
def winRegsR431 : List RegSpec :=
  [⟨"BLW_CMD", 0x5000, [.wo 31 28 0, .wo 4 4 0, .wo 3 0 0], 1, 4, 1, 4, false⟩,
   ⟨"BLW_CMD_STATUS", 0x5004, [.ro 31 31 0, .ro 30 30 0, .ro 7 4 0, .ro 3 0 0], 1, 4, 1, 4, false⟩,
   ⟨"BLW_RUNG", 0x5008, [.ro 6 6 0, .ro 5 5 0, .ro 4 4 0, .ro 3 3 0, .ro 2 0 7], 1, 4, 1, 4, false⟩,
   ⟨"BLW_RING", 0x500C, [.rc 31 16 0, .ro 4 0 0], 1, 4, 1, 4, false⟩,
   ⟨"BLW_NEWEST_LO", 0x5010, [.ro 31 0 0], 1, 4, 1, 4, false⟩,
   ⟨"BLW_NEWEST_HI", 0x5014, [.ro 31 0 0], 1, 4, 1, 4, false⟩,
   ⟨"BLW_SEL", 0x5018, [.rw 3 0 0], 1, 4, 1, 4, false⟩,
   ⟨"BLW_DIGEST_LO", 0x501C, [.ro 31 0 0], 1, 4, 1, 4, false⟩,
   ⟨"BLW_DIGEST_HI", 0x5020, [.ro 31 0 0], 1, 4, 1, 4, false⟩,
   ⟨"BLW_SHELF", 0x5024, [.rw 16 0 0], 1, 4, 1, 4, false⟩,
   ⟨"BLW_AUDIT", 0x5028, [.w1c 31 31 0, .rc 30 24 0, .ro 23 0 0], 1, 4, 1, 4, false⟩,
   ⟨"BLW_CLAMP_COUNT", 0x502C, [.rc 31 0 0], 1, 4, 1, 4, false⟩]

/-- VF BAR2: the registers of the map under R472 (15_host_interface.md). -/
def vfRegsR472 : List RegSpec :=
  [⟨"HST_VF_STATUS", 0x0, [.w1c 9 5 0, .w1c 4 4 0, .w1c 3 3 0, .ro 2 2 0, .ro 1 1 0], 1, 4, 1, 4, false⟩,
   ⟨"HST_VF_IRQ_MOD", 0x4, [.rw 23 16 1 (.range 1 255), .rw 15 0 0], 1, 4, 1, 4, false⟩,
   ⟨"HST_VF_DROPS", 0x8, [.rc 31 16 0, .rc 15 0 0], 1, 4, 1, 4, false⟩,
   ⟨"HST_VF_CLAMP_COUNT", 0xC, [.rc 31 0 0], 1, 4, 1, 4, false⟩,
   ⟨"HST_VF_RING_LO", 0x1000, [.rw 31 12 0], 5, 32, 1, 4, false⟩,
   ⟨"HST_VF_RING_HI", 0x1004, [.rw 31 0 0], 5, 32, 1, 4, false⟩,
   ⟨"HST_VF_RING_SIZE", 0x1008, [.rw 4 0 4 (.range 4 12)], 1, 4, 1, 4, false⟩,
   ⟨"HST_VF_RING_SIZE", 0x1028, [.rw 4 0 4 (.range 4 10)], 1, 4, 1, 4, false⟩,
   ⟨"HST_VF_RING_SIZE", 0x1048, [.rw 4 0 6 (.range 6 14)], 1, 4, 1, 4, false⟩,
   ⟨"HST_VF_RING_SIZE", 0x1068, [.rw 4 0 0xF (.range 15 22)], 1, 4, 1, 4, false⟩,
   ⟨"HST_VF_RING_SIZE", 0x1088, [.rw 4 0 4 (.range 4 10)], 1, 4, 1, 4, false⟩,
   ⟨"HST_VF_RING_CTRL", 0x100C, [.rw 0 0 0], 5, 32, 1, 4, false⟩,
   ⟨"HST_VF_DEV_PTR", 0x1010, [.ro 21 0 0], 5, 32, 1, 4, false⟩,
   ⟨"HST_VF_DB", 0x10000, [.rw 21 0 0], 5, 4096, 1, 4, false⟩]

/-- PF BAR0: the registers of the map under R494 (15_host_interface.md). -/
def pfRegsR494 : List RegSpec :=
  [⟨"HST_LINK_STATUS", 0x800000, [.ro 31 31 0, .ro 30 30 0, .ro 27 24 0, .ro 19 16 0, .rc 15 0 0], 1, 4, 1, 4, false⟩,
   ⟨"HST_TAGS", 0x800004, [.ro 31 16 0, .ro 15 0 0], 1, 4, 1, 4, false⟩,
   ⟨"HST_WD_CTRL", 0x800008, [.rw 15 0 0x64 (.range 1 65535)], 1, 4, 1, 4, false⟩,
   ⟨"HST_WD_STATUS", 0x80000C, [.w1c 15 0 0], 1, 4, 1, 4, false⟩,
   ⟨"HST_ERR_STATUS", 0x800010, [.ro 2 2 0, .w1c 1 1 0, .w1c 0 0 0], 1, 4, 1, 4, false⟩,
   ⟨"HST_CLAMP_COUNT", 0x800014, [.rc 31 0 0], 1, 4, 1, 4, false⟩,
   ⟨"HST_PF_CQ_LO", 0x800100, [.rw 31 12 0], 1, 4, 1, 4, false⟩,
   ⟨"HST_PF_CQ_HI", 0x800104, [.rw 31 0 0], 1, 4, 1, 4, false⟩,
   ⟨"HST_PF_CQ_SIZE", 0x800108, [.rw 4 0 6 (.range 6 14)], 1, 4, 1, 4, false⟩,
   ⟨"HST_PF_CQ_CTRL", 0x80010C, [.rw 0 0 0], 1, 4, 1, 4, false⟩,
   ⟨"HST_PF_CQ_DEV_PTR", 0x800110, [.ro 21 0 0], 1, 4, 1, 4, false⟩,
   ⟨"HST_PF_CQ_DB", 0x800114, [.rw 21 0 0], 1, 4, 1, 4, false⟩,
   ⟨"HST_VF_SUMMARY", 0x801000, [.ro 31 31 0, .ro 30 30 0, .ro 29 25 0, .ro 24 20 0, .ro 19 16 0], 512, 4, 1, 4, false⟩]

/-- PF BAR0: the registers of the map under R519 (16_clocks_power_crossings.md). -/
def pfRegsR519 : List RegSpec :=
  [⟨"CLK_STATUS", 0x900000, [.ro 31 30 3, .ro 25 16 0x2EE, .ro 4 4 0, .ro 3 3 0, .ro 2 2 0, .ro 1 1 0, .ro 0 0 0], 1, 4, 1, 4, false⟩,
   ⟨"PWR_CTRL", 0x900004, [.rw 2 0 0 (.upTo [0, 2, 3])], 1, 4, 1, 4, false⟩,
   ⟨"PWR_STATUS", 0x900008, [.ro 31 29 0, .ro 28 28 0, .ro 23 20 0, .rc 15 0 0], 1, 4, 1, 4, false⟩,
   ⟨"PWR_DOMAINS", 0x90000C, [.ro 30 16 0, .ro 14 0 0x7FFF], 1, 4, 1, 4, false⟩,
   ⟨"PWR_GOV_STATUS", 0x900010, [.ro 12 8 0, .ro 7 4 0xF, .ro 3 0 0xF], 1, 4, 1, 4, false⟩,
   ⟨"PWR_DRAIN_FORCED", 0x900014, [.ro 19 16 0, .rc 15 0 0], 1, 4, 1, 4, false⟩,
   ⟨"CDC_MODE", 0x900018, [.rw 0 0 0], 1, 4, 1, 4, false⟩,
   ⟨"CDC_STATUS", 0x90001C, [.w1c 1 1 0, .w1c 0 0 0], 1, 4, 1, 4, false⟩,
   ⟨"PWR_CLAMP_COUNT", 0x900020, [.rc 31 0 0], 1, 4, 1, 4, false⟩,
   ⟨"CDC_INST_MODE", 0x901000, [.rc 31 16 0, .rw 0 0 0], 512, 4, 1, 4, false⟩]

/-- PF BAR0: the registers of the map under R538 (17_safety.md). -/
def pfRegsR538 : List RegSpec :=
  [⟨"ICU_C_PENDING", 0xC00000, [.w1c 31 0 0], 10, 4, 1, 4, false⟩,
   ⟨"ICU_C_CLAMP_COUNT", 0xC00080, [.rc 31 0 0], 1, 4, 1, 4, false⟩,
   ⟨"ICU_C_SRC_CFG", 0xC01000, [.rw 31 31 0, .rw 7 0 0], 320, 4, 1, 4, true⟩]

/-- PF BAR0: the registers of the map under R539 (17_safety.md). -/
def pfRegsR539 : List RegSpec :=
  [⟨"SAF_STATUS", 0xA00000, [.ro 31 31 0, .ro 30 30 0, .ro 29 29 0, .ro 3 0 0xF], 1, 4, 1, 4, false⟩,
   ⟨"SAF_CHIP_CAUSE", 0xA00004, [.ro 11 0 0], 1, 4, 1, 4, false⟩,
   ⟨"SAF_FORCE", 0xA00008, [.wo 31 16 0, .wo 10 10 0, .wo 9 9 0, .rw 8 0 0], 1, 4, 1, 4, false⟩,
   ⟨"SAF_TEST_REQ", 0xA0000C, [.wo 31 31 0, .rw 10 8 0 (.upTo [0, 1, 2, 3, 4]), .rw 6 0 0], 1, 4, 1, 4, false⟩,
   ⟨"SAF_TEST_STATUS", 0xA00010, [.ro 31 31 0, .ro 25 24 0, .ro 1 0 0], 1, 4, 1, 4, false⟩,
   ⟨"SAF_UNITS", 0xA00014, [.ro 31 28 0, .ro 27 20 0, .ro 19 0 0], 1, 4, 1, 4, false⟩,
   ⟨"SAF_REC_HEAD", 0xA00018, [.ro 31 0 0], 1, 4, 1, 4, false⟩,
   ⟨"SAF_CLAMP_COUNT", 0xA0001C, [.rc 31 0 0], 1, 4, 1, 4, false⟩,
   ⟨"SAF_INST_FAULT", 0xA00100, [.w1c 31 0 0], 16, 4, 1, 4, false⟩,
   ⟨"SAF_BELL_MAP", 0xA00140, [.ro 31 0 0], 16, 4, 1, 4, false⟩,
   ⟨"SAF_WHISTLE_MAP", 0xA00180, [.ro 31 0 0], 16, 4, 1, 4, false⟩,
   ⟨"SAF_FLASH_MAP", 0xA001C0, [.ro 31 0 0], 16, 4, 1, 4, false⟩,
   ⟨"SAF_INST_CAUSE", 0xA01000, [.rc 31 24 0, .ro 7 0 0], 512, 4, 1, 4, false⟩,
   ⟨"SAF_REC", 0xA04000, [.ro 31 0 0], 64, 32, 8, 4, false⟩]

/-- PF BAR0: the registers of the map under R552 (18_pins_boot.md). -/
def pfRegsR552 : List RegSpec :=
  [⟨"GPIO_IN", 0xB00000, [.ro 31 0 0, .ro 15 0 0], 2, 4, 1, 4, false⟩,
   ⟨"GPIO_OUT", 0xB00010, [.rw 31 0 0, .rw 15 0 0], 2, 4, 1, 4, false⟩,
   ⟨"GPIO_SET", 0xB00020, [.w1s 31 0 0, .w1s 15 0 0], 2, 4, 1, 4, false⟩,
   ⟨"GPIO_CLR", 0xB00030, [.w1c 31 0 0, .w1c 15 0 0], 2, 4, 1, 4, false⟩,
   ⟨"GPIO_TGL", 0xB00040, [.wo 31 0 0, .wo 15 0 0], 2, 4, 1, 4, false⟩,
   ⟨"GPIO_LOCK_KEY", 0xB00050, [.wo 15 0 0], 1, 4, 1, 4, false⟩,
   ⟨"GPIO_STATUS", 0xB00054, [.ro 12 8 0, .w1c 1 1 0, .w1c 0 0 0], 1, 4, 1, 4, false⟩,
   ⟨"GPIO_STRAPS", 0xB00058, [.ro 2 2 0, .ro 1 1 0, .ro 0 0 0], 1, 4, 1, 4, false⟩,
   ⟨"GPIO_CLAMP_COUNT", 0xB0005C, [.rc 31 0 0], 1, 4, 1, 4, false⟩,
   ⟨"GPIO_LOCKED", 0xB00060, [.w1s 31 0 0, .w1s 15 0 0], 2, 4, 1, 4, false⟩,
   ⟨"GPIO_CFG", 0xB00100, [.rw 31 30 1 (.upTo [0, 1, 2]), .rw 23 20 0 (.upTo [0, 1, 2, 3, 4, 5, 6, 7, 8, 9, 10]), .rw 17 16 0, .rw 13 12 1 (.upTo [0, 1, 2]), .rw 9 8 1, .rw 1 1 0, .rw 0 0 0], 32, 4, 1, 4, false⟩,
   ⟨"GPIO_CFG", 0xB00180, [.rw 31 30 1 (.upTo [0, 1, 2]), .rw 23 20 0 (.upTo [0, 1, 2, 3, 4, 5, 6, 7, 8, 9, 10]), .rw 17 16 0, .rw 13 12 2 (.upTo [0, 1, 2]), .rw 9 8 1, .rw 1 1 0, .rw 0 0 0], 16, 4, 1, 4, false⟩,
   ⟨"GPIO_EVCNT", 0xB00200, [.rc 15 0 0], 48, 4, 1, 4, false⟩]

/-- PF BAR0: the registers of the map under R561 (18_pins_boot.md). -/
def pfRegsR561 : List RegSpec :=
  [⟨"MGT_BOOT_STATUS", 0xD00000, [.ro 31 28 0, .ro 25 24 3, .ro 15 0 0], 1, 4, 1, 4, false⟩,
   ⟨"MGT_FW_SEQ", 0xD00004, [.ro 31 0 0], 1, 4, 1, 4, false⟩,
   ⟨"MGT_MBX_CMD", 0xD00008, [.wo 31 28 0], 1, 4, 1, 4, false⟩,
   ⟨"MGT_MBX_STATUS", 0xD0000C, [.ro 31 31 0, .ro 3 0 0], 1, 4, 1, 4, false⟩,
   ⟨"MGT_MBX_M2H", 0xD00010, [.w1c 7 0 0], 1, 4, 1, 4, false⟩,
   ⟨"MGT_MBX_CLAMP_COUNT", 0xD00014, [.rc 31 0 0], 1, 4, 1, 4, false⟩,
   ⟨"MGT_MBX_ARG", 0xD00100, [.rw 31 0 0], 4, 4, 1, 4, false⟩,
   ⟨"MGT_MBX_RSP", 0xD00200, [.ro 31 0 0], 4, 4, 1, 4, false⟩]

/-- PF BAR0: the registers of the map under R202 (06_composition.md). -/
def pfRegsR202 : List RegSpec :=
  [⟨"CMP_BELL_CTRL", 0x380000, [.rw 9 8 0, .rw 5 4 0, .rw 3 2 0 (.upTo [0, 1, 2]), .rw 0 0 0], 512, 128, 1, 4, false⟩,
   ⟨"CMP_BELL_POS", 0x380004, [.rw 25 16 0, .rw 9 0 0], 512, 128, 1, 4, false⟩,
   ⟨"CMP_BELL_SIZE", 0x380008, [.rw 25 16 0, .rw 9 0 0], 512, 128, 1, 4, false⟩,
   ⟨"CMP_BELL_EXPECT", 0x38000C, [.rw 31 0 0], 512, 128, 1, 4, false⟩,
   ⟨"CMP_BELL_COMMIT", 0x380010, [.wo 0 0 0], 512, 128, 1, 4, false⟩,
   ⟨"CMP_BELL_CRC", 0x380014, [.ro 31 0 0], 512, 128, 1, 4, false⟩,
   ⟨"CMP_BELL_STATUS", 0x380018, [.rc 31 24 0, .w1c 5 5 0, .w1c 4 4 0, .w1c 3 3 0, .w1c 2 2 0, .ro 1 1 0, .ro 0 0 0], 512, 128, 1, 4, false⟩,
   ⟨"CMP_BELL_PAL", 0x380040, [.rw 31 24 0, .rw 23 0 0], 512, 128, 16, 4, false⟩,
   ⟨"CMP_BELL_WIN_SEL", 0x390000, [.rw 8 0 0], 1, 4, 1, 4, false⟩,
   ⟨"CMP_BELL_CLAMP_COUNT", 0x390004, [.rc 31 0 0], 1, 4, 1, 4, false⟩]

/-- PF BAR0: the registers of the map under R11 (00_scope.md). -/
def pfRegsR11 : List RegSpec :=
  [⟨"HST_IDENT", 0x0, [.ro 31 16 0x8512, .ro 15 8 3, .ro 3 0 0], 1, 4, 1, 4, false⟩]

/-- Every register of an instance window (R13). -/
def windowRegs : List RegSpec :=
  winRegsR87 ++ winRegsR126 ++ winRegsR157 ++ winRegsR178 ++ winRegsR211 ++ winRegsR251 ++ winRegsR280 ++ winRegsR339 ++ winRegsR346 ++ winRegsR377 ++ winRegsR431

/-- Every register of PF BAR0 below the windows (R465). -/
def pfRegs : List RegSpec :=
  pfRegsR51 ++ pfRegsR111 ++ pfRegsR267 ++ pfRegsR396 ++ pfRegsR410 ++ pfRegsR419 ++ pfRegsR428 ++ pfRegsR494 ++ pfRegsR519 ++ pfRegsR538 ++ pfRegsR539 ++ pfRegsR552 ++ pfRegsR561 ++ pfRegsR202 ++ pfRegsR11

/-- Every register of a VF's BAR2 (R472). -/
def vfRegs : List RegSpec :=
  vfRegsR472

/-- What an unlisted window register holds. -/
def windowReset (o : Nat) : Word := resetOf windowRegs o

/-- What an unlisted PF register holds. -/
def pfReset (o : Nat) : Word := resetOf pfRegs o

/-- What an unlisted BAR2 register holds. -/
def vfReset (o : Nat) : Word := resetOf vfRegs o

end Sys2Proof.Machine
end

