-- ==== Sys2Proof/Machine/State.lean ====
section
/-! DEFINITION. The whole state of the device as plain data, its faults and refusals, and the state right after reset. -/
namespace Sys2Proof.Machine

/-- What stops the machine. The manual gives the device no stop: every fault reaction of R521 to R534 is an effect, and a
command whose event cannot take place changes nothing. No meaning raises this fault; it is safe. -/
inductive Fault where
  /-- Raised by no meaning of this model: the manual names no event after which the device has no next state (safe). -/
  | halted
  deriving DecidableEq, Repr

/-- Why a command has no meaning. -/
inductive Refusal where
  /-- Raised by an arm of Dispatch.lean that has no meaning yet; safe, since it stops the run. -/
  | notModelled (mnemonic : String)
  deriving DecidableEq, Repr

/-- The state of the device. `pending` is the queue of waiting commands, `wall` the counter of R497, `regs` the registers
of PF BAR0 by offset, `insts` the instances by number, `pool` and `hbm` the bytes of the memories (an unlisted byte reads
0, as boot leaves it), `tx` what was sent to the host, oldest first, `answer` what the newest host access got, and `free`
the count of free values drawn. -/
structure State where
  pending : List Instr := []
  wall    : Nat := 0
  regs    : Map Word := []
  insts   : Map Inst := []
  image   : ImageSt := {}
  op      : Option MgtOp := none
  mram    : Mram := {}
  fuses   : Fuses := {}
  vault   : Vault := {}
  boot    : BootSt := {}
  power   : PowerSt := {}
  safety  : SafetySt := {}
  pins    : PinSt := {}
  host    : HostSt := {}
  eng     : EngineSt := {}
  mem     : MemSt := {}
  mons    : List Monitor := [{}, {}]
  pool    : Map Byte := []
  hbm     : Map Byte := []
  tx      : List Sent := []
  answer  : Option Tlp := none
  free    : Nat := 0
  deriving DecidableEq, Repr

/-- The device right after device reset by power-up: every register at its reset value, no image, unprogrammed fuses,
PERST# asserted (R10, R555, R556, R74). -/
def State.reset : State := {}

end Sys2Proof.Machine
end

