-- ==== Sys2Proof/Machine/Ops.lean ====
section
/-! DEFINITION. Named operations over the state: instances, registers by offset, the chip interrupt controller, MSI-X,
and the error records. -/
namespace Sys2Proof.Machine

/-- Instance n. -/
def State.inst (s : State) (n : Nat) : Inst := s.insts.get (fun _ => {}) n
/-- Replace instance n. -/
def State.setInst (s : State) (n : Nat) (i : Inst) : State := { s with insts := s.insts.set (fun _ => {}) n i }
/-- Change instance n. -/
def State.modInst (s : State) (n : Nat) (f : Inst → Inst) : State := s.setInst n (f (s.inst n))
/-- The instance state of instance n (R435). -/
def State.core (s : State) (n : Nat) : Core := (s.inst n).core
/-- Change the instance state of instance n. -/
def State.modCore (s : State) (n : Nat) (f : Core → Core) : State :=
  s.modInst n fun i => { i with core := f i.core }
/-- Instance n is admitted by the image in force (R62). -/
def State.admitted (s : State) (n : Nat) : Bool := (s.inst n).adm.state == 2

/-- A register of PF BAR0 by its offset. -/
def State.pf (s : State) (off : Nat) : Word := s.regs.get pfReset off
/-- Replace a register of PF BAR0. -/
def State.setPf (s : State) (off : Nat) (w : Word) : State := { s with regs := s.regs.set pfReset off w }
/-- Change a register of PF BAR0. -/
def State.modPf (s : State) (off : Nat) (f : Word → Word) : State := s.setPf off (f (s.pf off))
/-- Bits [hi:lo] of a register of PF BAR0. -/
def State.pfBits (s : State) (off hi lo : Nat) : Nat := wbits (s.pf off) hi lo
/-- Put a value into bits [hi:lo] of a register of PF BAR0. -/
def State.pfSet (s : State) (off hi lo v : Nat) : State := s.modPf off fun w => wset w hi lo v
/-- Set the bits of a mask in a register of PF BAR0. -/
def State.pfOr (s : State) (off m : Nat) : State := s.modPf off fun w => orBits w m
/-- Count in bits [hi:lo] of a register of PF BAR0, saturating (R9). -/
def State.pfCount (s : State) (off hi lo k : Nat) : State := s.modPf off fun w => countUp w hi lo k

/-- A register of the window that is instance state (R435), by its window offset. -/
def Core.reg (c : Core) (off : Nat) : Word := c.regs.get windowReset off
/-- Replace it. -/
def Core.setReg (c : Core) (off : Nat) (w : Word) : Core := { c with regs := c.regs.set windowReset off w }
/-- Change it. -/
def Core.modReg (c : Core) (off : Nat) (f : Word → Word) : Core := c.setReg off (f (c.reg off))
/-- Bits [hi:lo] of it. -/
def Core.rbits (c : Core) (off hi lo : Nat) : Nat := wbits (c.reg off) hi lo
/-- Set the bits of a mask in it. -/
def Core.rOr (c : Core) (off m : Nat) : Core := c.modReg off fun w => orBits w m
/-- Count in it, saturating (R9). -/
def Core.rCount (c : Core) (off k : Nat) : Core := c.modReg off fun w => countUp w 31 0 k
/-- Put a value into bits [hi:lo] of it. -/
def Core.rSet (c : Core) (off hi lo v : Nat) : Core := c.modReg off fun w => wset w hi lo v

/-- A register of the stream or Bellows block, which is not instance state (R434). -/
def Inst.reg (i : Inst) (off : Nat) : Word := i.regs.get windowReset off
/-- Replace it. -/
def Inst.setReg (i : Inst) (off : Nat) (w : Word) : Inst := { i with regs := i.regs.set windowReset off w }
/-- Change it. -/
def Inst.modReg (i : Inst) (off : Nat) (f : Word → Word) : Inst := i.setReg off (f (i.reg off))
/-- Bits [hi:lo] of it. -/
def Inst.rbits (i : Inst) (off hi lo : Nat) : Nat := wbits (i.reg off) hi lo
/-- Put a value into bits [hi:lo] of it. -/
def Inst.rSet (i : Inst) (off hi lo v : Nat) : Inst := i.modReg off fun w => wset w hi lo v

/-- A register of VF BAR2 (R472). -/
def Vf.reg (v : Vf) (off : Nat) : Word := v.regs.get vfReset off
/-- Replace it. -/
def Vf.setReg (v : Vf) (off : Nat) (w : Word) : Vf := { v with regs := v.regs.set vfReset off w }
/-- Change it. -/
def Vf.modReg (v : Vf) (off : Nat) (f : Word → Word) : Vf := v.setReg off (f (v.reg off))
/-- Bits [hi:lo] of it. -/
def Vf.rbits (v : Vf) (off hi lo : Nat) : Nat := wbits (v.reg off) hi lo
/-- Change the VF that serves instance n. -/
def State.modVf (s : State) (n : Nat) (f : Vf → Vf) : State := s.modInst n fun i => { i with vf := f i.vf }

/-- The counter of wall time of R497 goes on by a number of its counts. -/
def State.tick (s : State) (k : Nat) : State := { s with wall := s.wall + k }

/-- Draw a free value. -/
def State.fresh (s : State) : Word × State := (Config.freeWord s.free, { s with free := s.free + 1 })

/-- Send to the host (R467). -/
def State.send (s : State) (x : Sent) : State := { s with tx := s.tx ++ [x] }

/-- The word of an MSI-X table at its reset state: Vector Control masks the entry (R472, PRESUMED as PCIe defines). -/
def msixReset (o : Nat) : Word := if o % 16 = 12 then 1 else 0

/-- The message of vector v of a function with an MSI-X table: a write of the entry's data to its address (R482). -/
def msixMessage (fn : Nat) (table : Map Word) (v : Nat) : Sent :=
  .msix fn v ((table.get msixReset (16 * v)).toNat + 2 ^ 32 * (table.get msixReset (16 * v + 4)).toNat)
    (table.get msixReset (16 * v + 8))

/-- Vector v of an MSI-X table is masked by its entry. -/
def vectorMasked (table : Map Word) (v : Nat) : Bool := tb (table.get msixReset (16 * v + 12)).toNat 0

/-- Fire PF vector v: sent, or pending in the PBA while it or its function is masked or the PF may issue no request (R466, R482,
R538); with MSI-X Enable 0 there is no message. -/
def State.pfMsix (s : State) (v : Nat) : State :=
  if !s.host.msixOn || tb s.host.pba v then s
  else if vectorMasked s.host.msix v || s.host.msixOff || !s.host.bme then
    { s with host := { s.host with pba := s.host.pba ||| 2 ^ v } }
  else s.send (msixMessage 0 s.host.msix v)

/-- Fire vector v of the VF of instance n (R482). -/
def State.vfMsix (s : State) (n v : Nat) : State :=
  let f := (s.inst n).vf
  if !f.enabled || !f.msixOn || tb f.pba v then s
  else if vectorMasked f.msix v || f.msixOff || !f.bme then
    s.modVf n fun f => { f with pba := f.pba ||| 2 ^ v }
  else s.send (msixMessage (n + 1) f.msix v)

/-- Send the pending PF messages that may now be sent. -/
def State.pfMsixFlush (s : State) : State :=
  if !s.host.bme || !s.host.msixOn || s.host.msixOff || s.host.pba = 0 then s else
  loop 256 (fun v s =>
    if tb s.host.pba v && !vectorMasked s.host.msix v then
      ({ s with host := { s.host with pba := s.host.pba - 2 ^ v } } : State).send (msixMessage 0 s.host.msix v)
    else s) s

/-- Send the pending messages of the VF of instance n that may now be sent. -/
def State.vfMsixFlush (s : State) (n : Nat) : State :=
  loop 8 (fun v s =>
    let f := (s.inst n).vf
    if f.bme && f.msixOn && !f.msixOff && tb f.pba v && !vectorMasked f.msix v then
      (s.modVf n fun f => { f with pba := f.pba - 2 ^ v }).send (msixMessage (n + 1) f.msix v)
    else s) s

/-- The owner code of pin p: 0 HOST, 1 MGT, 2 SAFE (R549). -/
def State.pinOwner (s : State) (p : Nat) : Nat := s.pfBits (O.GPIO_CFG + 4 * p) 31 30

/-- The message of a chip source that becomes pending (R538); a pin's source reaches the PF only while the host owns the
pin (R551). -/
def State.chipMessage (s : State) (src : Nat) : State :=
  let cfg := (s.pf (O.ICU_C_SRC_CFG + 4 * src)).toNat
  let pin := decide (128 ≤ src) && decide (src < 176)
  if tb cfg 31 && (!pin || s.pinOwner (src - 128) == 0) then s.pfMsix (bits cfg 7 0) else s

/-- An event of an E source of the chip ICU (R537). -/
def State.chipEvent (s : State) (src : Nat) : State :=
  let o := O.ICU_C_PENDING + 4 * (src / 32)
  if tb (s.pf o).toNat (src % 32) then s else (s.pfOr o (2 ^ (src % 32))).chipMessage src

/-- The bits of a map register of 32 instances (R540): bit i tells whether `f` holds for instance 32g + i. -/
def State.groupBits (s : State) (g : Nat) (f : Inst → Bool) : Nat :=
  s.insts.foldl (fun a e => if e.1 / 32 = g && f e.2 then a ||| 2 ^ (e.1 % 32) else a) 0

/-- MISMATCH or NO_FIT of the Bell status of instance n (R540). -/
def State.bellBad (s : State) (n : Nat) : Bool :=
  s.pfBits (O.CMP_BELL_STATUS + 128 * n) 3 2 ≠ 0
/-- FREEZE, CORRUPT or STALE (R540). -/
def Inst.whistleBad (i : Inst) : Bool := (Nat.land (i.reg O.STR_STATUS).toNat 7) ≠ 0
/-- FLASH of STR_STATUS: the gain of Flash Mute is below 256 (R252, R540). -/
def Inst.flashOn (i : Inst) : Bool := decide (i.gain < 256)

/-- The level sources of the chip ICU as a mask over source numbers (R537). -/
def State.chipLevels (s : State) : Nat :=
  let on (b : Bool) (k : Nat) : Nat := if b then 2 ^ k else 0
  let err (o : Nat) := (s.pf o).toNat
  let base :=
    on (s.pf O.HST_WD_STATUS ≠ 0) 6 + on (tb (err O.CDC_STATUS) 0) 9
    + on (tb (err O.POOL_ERR_INFO) 27) 10 + on (tb (err O.POOL_ERR_INFO) 31 && tb (err O.POOL_ERR_INFO) 30) 11
    + on (tb (err O.HBM_ERR_INFO) 27) 12 + on (tb (err O.HBM_ERR_INFO) 31 && tb (err O.HBM_ERR_INFO) 30) 13
    + on s.safety.avClock 16 + on s.safety.tempWarn 19 + on (tb (err O.SAF_STATUS) 31) 20
  let fault := (List.range 16).foldl (fun a g => a + on (s.pf (O.SAF_INST_FAULT + 4 * g) ≠ 0) (32 + g)) 0
  let maps := s.insts.foldl (fun a e =>
    let g := e.1 / 32
    a ||| on e.2.whistleBad (64 + g) ||| on e.2.flashOn (80 + g)) 0
  let bell := s.regs.foldl (fun a e =>
    if O.CMP_BELL_STATUS ≤ e.1 && decide (e.1 < O.CMP_BELL_STATUS + 65536) && (e.1 - O.CMP_BELL_STATUS) % 128 = 0 then
      let n := (e.1 - O.CMP_BELL_STATUS) / 128
      a ||| on (s.bellBad n) (48 + n / 32)
    else a) 0
  base + fault + (maps ||| bell)

/-- The power state in force: 0 Run, 1 Idle, 2 Retain, 3 Doze, 4 Link-sleep (R501). -/
def State.pwr (s : State) : Nat := s.pfBits O.PWR_STATUS 31 29

/-- A source of the chip ICU that is enabled towards the PF is pending (R507, R538, R551). -/
def State.wakePending (s : State) : Bool :=
  (List.range 320).any fun k =>
    let pin := decide (128 ≤ k) && decide (k < 176)
    (tb (s.pf (O.ICU_C_PENDING + 4 * (k / 32))).toNat (k % 32) || (decide (k < 96) && tb s.safety.levels k))
      && tb (s.pf (O.ICU_C_SRC_CFG + 4 * k)).toNat 31 && (!pin || s.pinOwner (k - 128) == 0)

/-- In Link-sleep WAKE# follows the pending sources (R507); its assertion is noted among what the host is sent. -/
def State.wakePin (s : State) : State :=
  let on := s.pwr == 4 && s.wakePending
  if on = s.host.wake then s
  else
    let s : State := { s with host := { s.host with wake := on } }
    if on then s.send .wake else s

/-- The chip ICU follows its level sources, and sends the messages of those that have risen (R538); WAKE# follows what is pending
(R507). -/
def State.icuLevels (s : State) : State :=
  let now := s.chipLevels
  let old := s.safety.levels
  (if now = old then s else
    loop 96 (fun k s => if tb now k && !tb old k then s.chipMessage k else s)
      { s with safety := { s.safety with levels := now } }).wakePin

/-- Write an error record (R536). -/
def State.addRec (s : State) (kind cause inst unit addr : Nat) : State :=
  let h := (s.safety.head + 1) % 2 ^ 32
  { s with safety := { s.safety with
      head := h,
      recs := (⟨h, s.mram.boots, s.wall % 2 ^ 64, kind, cause, inst, unit, addr⟩ :: s.safety.recs).take 64 } }

/-- The words of an error record as SAF_REC shows it (R536). -/
def ErrRec.bytes (r : ErrRec) : List Byte :=
  leBytes 4 r.seq ++ leBytes 4 r.boots ++ leBytes 8 r.time ++ leBytes 1 r.kind ++ leBytes 1 r.cause ++ leBytes 2 r.inst
    ++ leBytes 2 r.unit ++ leBytes 2 0 ++ leBytes 8 r.addr

/-- A cause of the instance fault reaction is detected for instance n (R529); the reaction follows at the end of the
command (R530, R531). -/
def State.foundFault (s : State) (n cause addr : Nat) : State :=
  s.modInst n fun i => { i with found := i.found ++ [(cause, addr)] }

/-- A chip cause is detected (R532). -/
def State.foundChip (s : State) (cause addr : Nat) : State :=
  { s with safety := { s.safety with found := s.safety.found ++ [(cause, addr)] } }

/-- CHIP_FAULT (R534). -/
def State.chipFault (s : State) : Bool := tb (s.pf O.SAF_STATUS).toNat 31

/-- The clock plan in force runs at the Quiet dividers (R24). -/
def State.quiet (s : State) : Bool := s.image.mode == 2

end Sys2Proof.Machine
end

