-- ==== Sys2Proof/Machine/Mem.lean ====
section
/-! DEFINITION. The memories (13_memory.md): Pool and HBM bytes with their check codes, the undo copies of Bellows (R436),
the VRAM, work RAM and echo area of an instance, and cartridge space with its leaf cache. -/
namespace Sys2Proof.Machine

/-- A byte of memory that nothing has written reads 0: boot zeroes the memories (R558). -/
def zeroByte : Nat → Byte := fun _ => 0

/-- The listed cells of a range, with offsets from its start. -/
def cellsIn (m : Map Byte) (lo n : Nat) : List (Nat × Byte) :=
  (m.filter fun e => decide (lo ≤ e.1) && decide (e.1 < lo + n)).map fun e => (e.1 - lo, e.2)

/-- A memory with a range set to zero. -/
def clearRange (m : Map Byte) (lo n : Nat) : Map Byte :=
  m.filter fun e => decide (e.1 < lo) || decide (lo + n ≤ e.1)

/-- A memory with consecutive bytes written. -/
def putBytes (m : Map Byte) : Nat → List Byte → Map Byte
  | _, [] => m
  | a, b :: r => putBytes (m.set zeroByte a b) (a + 1) r

/-- Consecutive bytes of a memory. -/
def getBytes (m : Map Byte) (a n : Nat) : List Byte := (List.range n).map fun i => m.get zeroByte (a + i)

/-- A memory with a range replaced by cells given by their offsets. -/
def putCells (m : Map Byte) (lo n : Nat) (cells : List (Nat × Byte)) : Map Byte :=
  cells.foldl (fun m c => m.set zeroByte (lo + c.1) c.2) (clearRange m lo n)

/-- The instance whose quota or per-instance item holds Pool address a (R400, R401). -/
def State.poolOwner (s : State) (a : Nat) : Option Nat :=
  if a < 0x6000000 then
    (s.insts.find? fun e => e.2.adm.state == 2 && decide (e.2.adm.pool * 16384 ≤ a)
      && decide (a < (e.2.adm.pool + e.2.adm.vram) * 16384)).map (·.1)
  else if a < 0x6080000 then some ((a - 0x6000000) / 0x400)
  else if a < 0x6880000 then some ((a - 0x6080000) / 0x4000)
  else if a < 0x7880000 then some ((a - 0x6880000) / 0x8000)
  else if a < 0x7A80000 then some ((a - 0x7880000) / 0x1000)
  else none

/-- The start of an instance's echo area in HBM (R416). -/
def State.echoBase (s : State) (n : Nat) : Nat := s.image.bases.getD 4 0 + (s.inst n).adm.index * 262144
/-- The start of an instance's park area in HBM (R416). -/
def State.parkBase (s : State) (n : Nat) : Nat := s.image.bases.getD 5 0 + (s.inst n).adm.index * 524288

/-- The fields of an Extent Table entry (R422). -/
structure ExtEntry where
  valid    : Bool
  target   : Bool
  writable : Bool
  owned    : Bool
  pin      : Bool
  addr     : Nat
  leaves   : Nat
  owner    : Nat
  rsvOk    : Bool
  deriving DecidableEq, Repr

/-- Read an entry's 128 bits (R422). -/
def extEntry (v : Nat) : ExtEntry :=
  { valid := tb v 0, target := tb v 1, writable := tb v 2, owned := tb v 3, pin := tb v 4, addr := bits v 63 16 * 65536,
    leaves := bits v 87 80 + 1, owner := bits v 104 96,
    rsvOk := bits v 15 5 == 0 && bits v 79 64 == 0 && bits v 95 88 == 0 && bits v 127 105 == 0 }

/-- Entry e of the Extent Table. -/
def State.extEntry (s : State) (e : Nat) : ExtEntry := Sys2Proof.Machine.extEntry (s.mem.ext.get (fun _ => 0) e)

/-- The resident leaf (e, l), if any. -/
def State.leaf? (s : State) (e l : Nat) : Option Leaf :=
  s.mem.leaves.find? fun x => x.extent == e && x.leaf == l

/-- The instance whose area holds HBM address a: work RAM, stream buffer, echo area or park area (R416), or the range of a TARGET 1
extent (R422). -/
def State.hbmOwner (s : State) (a : Nat) : Option Nat :=
  let within (b n : Nat) : Bool := decide (b ≤ a) && decide (a < b + n)
  ((s.insts.find? fun e =>
    let d := e.2.adm
    d.state == 2 && (within d.workB (d.work * 1048576) || within d.strmB (streamMib d.cls * 1048576)
      || within (s.echoBase e.1) 262144 || within (s.parkBase e.1) 524288)).map (·.1)).or
  ((s.mem.ext.find? fun e =>
    let x := Sys2Proof.Machine.extEntry e.2
    x.valid && x.target && within x.addr 0x1000000).map fun e => (Sys2Proof.Machine.extEntry e.2).owner)

/-- The words of a memory with a corrupted bit, and those that are uncorrectable (R406). -/
def State.badOf (s : State) (m : MemId) : List Nat × List Nat :=
  match m with
  | .pool => (s.mem.poolCe, s.mem.poolUe)
  | .hbm => (s.mem.hbmCe, s.mem.hbmUe)
  | .vault => (s.vault.ce, s.vault.ue)
  | .ext => (s.mem.extCe, s.mem.extUe)
  | .leaf e l => match s.leaf? e l with | some x => (x.ce, x.ue) | none => ([], [])

/-- Replace them. -/
def State.setBad (s : State) (m : MemId) (ce ue : List Nat) : State :=
  match m with
  | .pool => { s with mem := { s.mem with poolCe := ce, poolUe := ue } }
  | .hbm => { s with mem := { s.mem with hbmCe := ce, hbmUe := ue } }
  | .vault => { s with vault := { s.vault with ce, ue } }
  | .ext => { s with mem := { s.mem with extCe := ce, extUe := ue } }
  | .leaf e l => { s with mem := { s.mem with leaves := s.mem.leaves.map fun x =>
      if x.extent == e && x.leaf == l then { x with ce, ue } else x } }

/-- The memory belongs to the HBM stack. -/
def inHbm (m : MemId) : Bool :=
  match m with | .hbm | .leaf _ _ => true | _ => false

/-- The address of a word as the ERR registers and error records give it (R411, R420, R536). -/
def State.errAddr (s : State) (x : WordAt) : Nat :=
  match x.mem with
  | .pool | .hbm => 8 * x.word
  | .vault => Config.sramAddr false x.word % 2 ^ 27 / 8 * 8
  | .ext => Config.sramAddr true x.word % 2 ^ 27 / 8 * 8
  | .leaf e l =>
    let b := s.image.bases.getD 6 0
    b + Config.leafFrame e l % ((0x900000000 - b) / 65536) * 65536 + 8 * x.word

/-- The instance that a word belongs to (R400, R407, R416, R417, R422). -/
def State.wordOwner (s : State) (x : WordAt) : Option Nat :=
  match x.mem with
  | .pool => s.poolOwner (8 * x.word)
  | .hbm => s.hbmOwner (8 * x.word)
  | .leaf e _ => if (s.extEntry e).owned then some (s.extEntry e).owner else none
  | .vault | .ext => none

/-- Record an error of a memory in its ERR registers (R411, R420). -/
def State.eccRecord (s : State) (x : WordAt) (ue : Bool) (foundBy : Nat) : State :=
  let info := if inHbm x.mem then O.HBM_ERR_INFO else O.POOL_ERR_INFO
  if !ue && tb (s.pf info).toNat 31 then s else
  let owner := s.wordOwner x
  let w := s.errAddr x
  let s := s.modPf info fun x =>
    wset (wset (wset (wset (wset x 31 31 1) 30 30 (b2n ue)) 29 28 foundBy) 26 26 (b2n owner.isSome)) 24 16 (owner.getD 0)
  if inHbm x.mem then (s.setPf O.HBM_ERR_ADDR_LO (BitVec.ofNat 32 w)).setPf O.HBM_ERR_ADDR_HI (BitVec.ofNat 32 (w / 2 ^ 32))
  else s.setPf O.POOL_ERR_ADDR (BitVec.ofNat 32 w)

/-- A corrected error in a word (R406, R411, R417, R536). -/
def State.eccCe (s : State) (x : WordAt) (foundBy : Nat) : State :=
  let (cnt, ctrl, info) := if inHbm x.mem then (O.HBM_CE_COUNT, O.HBM_ECC_CTRL, O.HBM_ERR_INFO)
    else (O.POOL_CE_COUNT, O.POOL_ECC_CTRL, O.POOL_ERR_INFO)
  let old := (s.pf cnt).toNat
  let s := (s.pfCount cnt 31 0 1).eccRecord x false foundBy
  let th := s.pfBits ctrl 31 16
  if old < th && decide (th ≤ (s.pf cnt).toNat) then
    (s.pfOr info (2 ^ 27)).addRec 3 0 ((s.wordOwner x).getD 0xFFFF) 0xFFFF (s.errAddr x)
  else s

/-- An uncorrectable error in a word (R406, R417). -/
def State.eccUe (s : State) (x : WordAt) (foundBy : Nat) : State :=
  (s.pfCount (if inHbm x.mem then O.HBM_UE_COUNT else O.POOL_UE_COUNT) 31 0 1).eccRecord x true foundBy

/-- The corrupted bit of word w of a memory is written back corrected (R406). -/
def State.heal (s : State) (m : MemId) (w : Nat) : State :=
  s.setBad m ((s.badOf m).1.filter (· != w)) (s.badOf m).2

/-- Check one word as an access does: whether it is uncorrectable (R406). -/
def State.eccWord (s : State) (m : MemId) (foundBy w : Nat) : Bool × State :=
  if (s.badOf m).2.contains w then (true, s.eccUe ⟨m, w⟩ foundBy)
  else if (s.badOf m).1.contains w then (false, (s.heal m w).eccCe ⟨m, w⟩ foundBy)
  else (false, s)

/-- No word of a memory is corrupted. -/
def State.sound (s : State) (m : MemId) : Bool := (s.badOf m).1.isEmpty && (s.badOf m).2.isEmpty

/-- Check the words of a range as an access of it does: the first uncorrectable one (R406). -/
def State.eccRange (s : State) (m : MemId) (foundBy a n : Nat) : Option Nat × State :=
  if s.sound m || n = 0 then (none, s) else
  loop ((a + n - 1) / 8 + 1 - a / 8) (fun i r =>
    let (bad, s) := r.2.eccWord m foundBy (a / 8 + i)
    (if bad && r.1.isNone then some (8 * (a / 8 + i)) else r.1, s)) (none, s)

/-- What a write does to the check codes: a whole word is stored clean, a partial write is checked (R406). -/
def State.eccWrite (s : State) (m : MemId) (a n : Nat) : State :=
  if s.sound m || n = 0 then s else
  loop ((a + n - 1) / 8 + 1 - a / 8) (fun i s =>
    let w := a / 8 + i
    if a ≤ 8 * w && decide (8 * w + 8 ≤ a + n) then s.setBad m ((s.badOf m).1.filter (· != w)) ((s.badOf m).2.filter (· != w))
    else (s.eccWord m 0 w).2) s

/-- A word of instance n was met uncorrectable by a reader that R407 does not list, such as the mixer, an undo copy or a move between
rungs: DEDUCED from the causes of R529, the instance takes the reaction (log entry 37). -/
def State.readChecked (s : State) (n : Nat) (m : MemId) (a len : Nat) : State :=
  match s.eccRange m 0 a len with
  | (some u, s) => s.foundFault n (if inHbm m then 4 else 3) (s.errAddr ⟨m, u / 8⟩)
  | (none, s) => s

/-- FIRST and COUNT of an instance's span (R421). -/
def State.span (s : State) (n : Nat) : Nat × Nat :=
  (s.pfBits (O.EXT_SPAN_FIRST + 8 * n) 16 0, s.pfBits (O.EXT_SPAN_COUNT + 8 * n) 17 0)

/-- Where a cartridge access ends (R423). -/
inductive CartAt where
  /-- UNMAPPED 0, READ_ONLY 1 or NOT_OWNER 2: a bit of EXT_FAULT -/
  | fault (b : Nat)
  /-- a byte address of HBM -/
  | hbm (a : Nat)
  /-- a leaf of a host-target extent -/
  | leaf (e l off : Nat)
  deriving DecidableEq, Repr

/-- Resolve cartridge space offset `a` for instance n (R423). -/
def State.cartAt (s : State) (n a : Nat) (store : Bool) : CartAt :=
  let e := (s.span n).1 + a / 0x1000000
  let l := a / 65536 % 256
  let x := s.extEntry e
  if !x.valid || decide (x.leaves ≤ l) then .fault 0
  else if x.owned && x.owner != n then .fault 2
  else if store && !x.writable then .fault 1
  else if x.target then .hbm (x.addr + a % 0x1000000)
  else .leaf e l (a % 65536)

/-- Replace a resident leaf, which becomes the one used last (R424). -/
def State.useLeaf (s : State) (x : Leaf) : State :=
  let k := s.mem.useNo + 1
  { s with mem := { s.mem with
      useNo := k,
      leaves := { x with use := k } :: s.mem.leaves.filter fun y => !(y.extent == x.extent && y.leaf == x.leaf) } }

/-- One byte into the CRC-64 of R439. -/
def crc64Step (c : Nat) (b : Byte) : Nat :=
  (List.range 8).foldl (fun c _ => if tb c 63 then nxor (c * 2 % 2 ^ 64) 0x42F0E1EBA9EA3693 else c * 2)
    (nxor c (b.toNat * 2 ^ 56))
/-- CRC64 of a tagged block (R439). -/
def blockCrc (region block : Nat) (data : List Byte) : Nat :=
  (leBytes 8 (block + region * 2 ^ 48) ++ data).foldl crc64Step 0

/-- Region-5 blocks of a leaf that goes keep the CRC64 that the digest counts for them (R439). -/
def State.keepCrcs (s : State) (x : Leaf) : State :=
  if !(s.extEntry x.extent).owned then s else
  loop 16 (fun k s =>
    let b := x.extent * 4096 + x.leaf * 16 + k
    { s with mem := { s.mem with
        crcs := (b, blockCrc 5 b (getBytes x.cells (4096 * k) 4096)) :: s.mem.crcs.filter fun e => e.1 != b } }) s

/-- The block size of a region of R434. -/
def regionBlock (r : Nat) : Nat := if r = 2 then 1024 else 4096

/-- Where block b of a region lies: in the Pool or in HBM by address, or in a leaf (R434, R439). -/
inductive BlockAt where
  | pool (a : Nat)
  | hbm (a : Nat)
  | leaf (e l off : Nat)
  deriving DecidableEq, Repr

/-- Find block b of region r of instance n. -/
def State.blockAt (s : State) (n r b : Nat) : BlockAt :=
  let d := (s.inst n).adm
  match r with
  | 2 => .pool (d.pool * 16384 + b * 1024)
  | 3 => .hbm (d.workB + b * 4096)
  | 4 => .hbm (s.echoBase n + b * 4096)
  | _ =>
    let e := b / 4096
    let o := b % 4096 * 4096
    let x := s.extEntry e
    if x.target then .hbm (x.addr + o) else .leaf e (o / 65536) (o % 65536)

/-- The cells of a block, none when its leaf is not resident. -/
def State.blockCells (s : State) (n r b : Nat) : Option (List (Nat × Byte)) :=
  match s.blockAt n r b with
  | .pool a => some (cellsIn s.pool a (regionBlock r))
  | .hbm a => some (cellsIn s.hbm a (regionBlock r))
  | .leaf e l o => (s.leaf? e l).map fun x => cellsIn x.cells o (regionBlock r)

/-- Put a block's cells back (R436); a leaf that is not resident is left. -/
def State.putBlock (s : State) (n r b : Nat) (cells : List (Nat × Byte)) : State :=
  match s.blockAt n r b with
  | .pool a => { s with pool := putCells s.pool a (regionBlock r) cells }
  | .hbm a => { s with hbm := putCells s.hbm a (regionBlock r) cells }
  | .leaf e l o => match s.leaf? e l with
    | some x => s.useLeaf { x with cells := putCells x.cells o (regionBlock r) cells, dirty := true }
    | none => s

/-- The bytes that a checkpoint takes of its instance's share (R437). -/
def Ckpt.size (c : Ckpt) : Nat :=
  roundUp (64 + 8192 + 64 + 16 * c.hlog.length + (c.undo.map fun u => 8 + regionBlock u.region).foldl (· + ·) 0) 64

/-- An instance's share of the checkpoint region (R437). -/
def State.ckptShare (s : State) : Nat := 7936 * 1048576 / (65536 * max s.image.admitted 1) * 65536

/-- Keep a ring, newest first, within the share and within 16 entries; none when the newest entry alone exceeds the
share (R438). -/
def fitRing (share : Nat) (ring : List Ckpt) : Option (List Ckpt) :=
  let rec take (left : Nat) : List Ckpt → List Ckpt
    | [] => []
    | c :: r => if c.size ≤ left then c :: take (left - c.size) r else []
  match take share (ring.take 16) with
  | [] => if ring.isEmpty then some [] else none
  | l => some l

/-- Copy block b of region r into the undo record of the newest checkpoint, once per write interval (R436), and keep
the ring within its share (R438). -/
def State.undoCopy (s : State) (n r b : Nat) : State :=
  let i := s.inst n
  match i.ring with
  | [] => s
  | c :: rest =>
    if i.noUndo || c.undo.any (fun u => u.region == r && u.block == b) then s else
    match s.blockCells n r b with
    | none => s
    | some cells =>
      let s := match s.blockAt n r b with
        | .pool a => s.readChecked n .pool a (regionBlock r)
        | .hbm a => s.readChecked n .hbm a (regionBlock r)
        | .leaf e l o => s.readChecked n (.leaf e l) o (regionBlock r)
      let i := s.inst n
      let ring := { c with undo := ⟨r, b, cells⟩ :: c.undo } :: rest
      match fitRing s.ckptShare ring with
      | some ring => s.setInst n { i with ring, cut := i.cut || (decide (ring.length < 2) && !rest.isEmpty) }
      | none => s.setInst n ({ i with ring := [], noUndo := true, cut := true }.modReg O.BLW_RING fun w => countUp w 31 16 1)

/-- Undo copies for a range of a region, before it is written. -/
def State.undoRange (s : State) (n r a len : Nat) : State :=
  if len = 0 then s else
  let z := regionBlock r
  loop ((a + len - 1) / z + 1 - a / z) (fun i s => s.undoCopy n r (a / z + i)) s

/-- The Pool address of VRAM offset v (R401). -/
def State.vramAt (s : State) (n v : Nat) : Nat := (s.inst n).adm.pool * 16384 + v
/-- The VRAM quota in bytes. -/
def State.quota (s : State) (n : Nat) : Nat := (s.inst n).adm.vram * 16384
/-- The size of work RAM in bytes. -/
def State.workSize (s : State) (n : Nat) : Nat := (s.inst n).adm.work * 1048576

/-- VRAM bytes as they stand in the Pool. -/
def State.vramBytes (s : State) (n v len : Nat) : List Byte := getBytes s.pool (s.vramAt n v) len
/-- Work RAM bytes. -/
def State.workBytes (s : State) (n w len : Nat) : List Byte := getBytes s.hbm ((s.inst n).adm.workB + w) len

/-- Write VRAM bytes, undo copy first (R436). -/
def State.wrVram (s : State) (n v : Nat) (data : List Byte) : State :=
  let s := (s.undoRange n 2 v data.length).eccWrite .pool (s.vramAt n v) data.length
  { s with pool := putBytes s.pool (s.vramAt n v) data }

/-- Write work RAM bytes, undo copy first. -/
def State.wrWork (s : State) (n w : Nat) (data : List Byte) : State :=
  let a := (s.inst n).adm.workB + w
  let s := (s.undoRange n 3 w data.length).eccWrite .hbm a data.length
  { s with hbm := putBytes s.hbm a data }

/-- Write bytes of the echo area, undo copy first. -/
def State.wrEcho (s : State) (n e : Nat) (data : List Byte) : State :=
  let a := s.echoBase n + e
  let s := (s.undoRange n 4 e data.length).eccWrite .hbm a data.length
  { s with hbm := putBytes s.hbm a data }

/-- Set a bit of EXT_FAULT (R423). -/
def State.extFault (s : State) (n b : Nat) : State := s.pfOr (O.EXT_FAULT + 4 * n) (2 ^ b)

/-- What a read gives: bytes, an uncorrectable word that it met, or a missing leaf to wait for. -/
inductive ReadOut where
  | ok (data : List Byte) (s : State)
  | ue (x : WordAt) (s : State)
  | wait (e l : Nat)

/-- Read bytes of a memory as an access does: their words are checked (R406, R417). -/
def State.rdMem (s : State) (m : MemId) (a len : Nat) (data : State → List Byte) : ReadOut :=
  match s.eccRange m 0 a len with
  | (some u, s) => .ue ⟨m, u / 8⟩ s
  | (none, s) => .ok (data s) s

/-- The Extent Table entry of an access at cartridge space offset `a` (R421, R423). -/
def State.cartEntry (s : State) (n a : Nat) : Nat := (s.span n).1 + a / 0x1000000

/-- Read `len` bytes of cartridge space within one leaf for instance n (R423, R424); `atomic` asks for the store right. The words of
the entry are checked with it (R406). -/
def State.rdCart (s : State) (n a len : Nat) (atomic : Bool) : ReadOut :=
  match s.eccRange .ext 0 (16 * s.cartEntry n a) 16 with
  | (some u, s) => .ue ⟨.ext, u / 8⟩ s
  | (none, s) =>
    match s.cartAt n a atomic with
    | .fault b => .ok (List.replicate len 0) (s.extFault n b)
    | .hbm h => s.rdMem .hbm h len fun s => getBytes s.hbm h len
    | .leaf e l o =>
      if (s.leaf? e l).isNone then .wait e l else
      match s.rdMem (.leaf e l) o len fun s => match s.leaf? e l with | some x => getBytes x.cells o len | none => [] with
      | .ok d s => .ok d (match s.leaf? e l with | some x => s.useLeaf x | none => s)
      | r => r

/-- Write within one leaf of cartridge space; a store to a missing leaf waits for it (R423, R426). An uncorrectable word of the entry
is an error of a shared table (R407). -/
def State.wrCart (s : State) (n a : Nat) (data : List Byte) : Except (Nat × Nat) State :=
  match s.eccRange .ext 0 (16 * s.cartEntry n a) 16 with
  | (some u, s) => .ok (s.foundChip 8 (s.errAddr ⟨.ext, u / 8⟩))
  | (none, s) =>
    let o5 := s.cartEntry n a * 0x1000000 + a % 0x1000000
    match s.cartAt n a true with
    | .fault b => .ok (s.extFault n b)
    | .hbm h =>
      let s := (s.undoRange n 5 o5 data.length).eccWrite .hbm h data.length
      .ok { s with hbm := putBytes s.hbm h data }
    | .leaf e l o =>
      if (s.leaf? e l).isNone then .error (e, l) else
      let s := (s.undoRange n 5 o5 data.length).eccWrite (.leaf e l) o data.length
      match s.leaf? e l with
      | none => .error (e, l)
      | some x => .ok (s.useLeaf { x with cells := putBytes x.cells o data, dirty := true })

/-- Read bytes of the space numbered `sp` of R310 of instance n (CART 1, WORK 2, VRAM 3). An offset at or above the size
of WORK or VRAM is not reached by any caller. -/
def State.rdSpace (s : State) (n sp a len : Nat) (atomic : Bool) : ReadOut :=
  match sp with
  | 1 => s.rdCart n a len atomic
  | 2 => s.rdMem .hbm ((s.inst n).adm.workB + a) len fun s => getBytes s.hbm ((s.inst n).adm.workB + a) len
  | 3 => s.rdMem .pool (s.vramAt n a) len fun s => getBytes s.pool (s.vramAt n a) len
  | _ => .ok (List.replicate len 0) s

/-- Write bytes of a space of R310. -/
def State.wrSpace (s : State) (n sp a : Nat) (data : List Byte) : Except (Nat × Nat) State :=
  match sp with
  | 1 => s.wrCart n a data
  | 2 => .ok (s.wrWork n a data)
  | 3 => .ok (s.wrVram n a data)
  | _ => .ok s

/-- Whether a Pool word is uncorrectable, by VRAM offset (R407). -/
def State.vramBad (s : State) (n : Nat) : Nat → Bool :=
  if s.mem.poolUe.isEmpty then fun _ => false
  else fun v => s.mem.poolUe.contains (s.vramAt n v / 8)

/-- A state with word w of a memory filled with one byte. -/
def State.fillWord (s : State) (m : MemId) (w : Nat) (x : Byte) : State :=
  let d := List.replicate 8 x
  match m with
  | .pool => { s with pool := putBytes s.pool (8 * w) d }
  | .hbm => { s with hbm := putBytes s.hbm (8 * w) d }
  | _ => s

/-- A unit that makes `f` of a memory reads word w: its loss, or other contents, would show in what it makes (log entry 37). -/
def State.senses {α : Type} [DecidableEq α] (s : State) (m : MemId) (w : Nat) (f : State → (Nat → Bool) → α) : Bool :=
  let now := f s fun _ => false
  f s (fun a => a / 8 == w) != now || [0x00, 0xFF, 0x5A].any fun x => f (s.fillWord m w x) (fun _ => false) != now

/-- The check codes of the words of a range that a unit reads for instance n (R406, R407), given by what the unit makes of the state
where some addresses are lost. -/
def State.eccSensed {α : Type} [DecidableEq α] (s : State) (n : Nat) (m : MemId) (lo len cause : Nat)
    (f : State → (Nat → Bool) → α) : State :=
  (((s.badOf m).1 ++ (s.badOf m).2).filter fun w => decide (lo ≤ 8 * w) && decide (8 * w < lo + len)).foldl (fun s w =>
    if !s.senses m w f then s else
    let (ue, s) := s.eccWord m 0 w
    if ue then s.foundFault n cause (8 * w) else s) s

end Sys2Proof.Machine
end

