-- ==== Sys2Proof/Machine/InstIcu.lean ====
section
/-! DEFINITION. The interrupt controller of an instance (11_interrupts_timers_events.md, R348 to R361): signals, sensing,
pending sources, claims and entry. -/
namespace Sys2Proof.Machine

/-- Thread t of an instance. -/
def Core.thread (c : Core) (t : Nat) : Thread := c.threads.getD t {}
/-- Replace thread t. -/
def Core.setThread (c : Core) (t : Nat) (x : Thread) : Core := { c with threads := c.threads.set t x }
/-- Change thread t. -/
def Core.modThread (c : Core) (t : Nat) (f : Thread → Thread) : Core := c.setThread t (f (c.thread t))

/-- A mask with bit k set where a truth value holds. -/
def onBit (b : Bool) (k : Nat) : Nat := if b then 2 ^ k else 0

/-- The signals of the 64 sources (R348). -/
def Core.signalsNow (c : Core) : Nat :=
  let r (o : Nat) := (c.reg o).toNat
  let tim := (List.range 4).foldl (fun a i =>
    let st := r (O.TIM_STATUS + 32 * i)
    a + onBit (tb st 0) i + onBit (tb st 1) (4 + i) + onBit (tb st 2) (8 + i)
      + onBit (tb (r O.BTIM_STATUS) i) (12 + i)
      + onBit (tb (r (O.DMA_STATUS + 32 * i)) 1) (37 + i)
      + onBit (c.thread i).dblTrap (41 + i)) 0
  let spr := r O.SPR_STATUS
  let cue := r O.CUE_STATUS
  let cmp := r O.CMP_STATUS
  let blt := r O.BLT_STATUS
  let aud := r O.AUD_STATUS
  tim + onBit (tb c.beam 0) 16 + onBit (tb c.beam 1) 17
    + onBit (tb spr 0) 18 + onBit (tb spr 1) 19 + onBit (tb spr 2) 20 + onBit (tb spr 3) 21
    + onBit (bits (r O.VID_STATUS) 5 0 ≠ 0) 22
    + onBit (tb cue 0) 23 + onBit (tb cue 1) 24 + onBit (tb cue 2) 25 + onBit (tb cue 3) 26
    + onBit (bits cmp 1 0 ≠ 0) 27 + onBit (bits cmp 3 2 ≠ 0) 28 + onBit (bits cmp 5 4 ≠ 0) 29 + onBit (tb cmp 6) 30
    + onBit (tb blt 1) 31 + onBit (tb blt 2) 32 + onBit (tb blt 3) 33
    + onBit (bits aud 31 16 ≠ 0) 34 + onBit (tb aud 1) 35 + onBit (tb aud 0) 36
    + bits (r O.ICU_SWINT_SET) 7 0 * 2 ^ 45

/-- ICU_SRC_CFG of a source. -/
def Core.srcCfg (c : Core) (k : Nat) : Nat := (c.reg (O.ICU_SRC_CFG + 4 * k)).toNat
/-- LEVEL of a source (R350). -/
def Core.srcLevel (c : Core) (k : Nat) : Nat := bits (c.srcCfg k) 2 0
/-- SENSE of a source (R349). -/
def Core.srcSense (c : Core) (k : Nat) : Nat := bits (c.srcCfg k) 5 4
/-- Whether a source targets thread t. -/
def Core.srcTargets (c : Core) (k t : Nat) : Bool := tb (c.srcCfg k) (8 + t)

/-- Bits of a 64-bit mask as a list. -/
def maskBits (w m : Nat) : List Nat := (List.range w).filter fun k => tb m k

/-- The controller follows its signals: each change latches the RISE and BOTH sources that sense it (R349). -/
def Core.sense (c : Core) : Core :=
  let now := c.signalsNow
  if now = c.signals then c else
  let latch (k : Nat) : Bool :=
    let rise := tb now k && !tb c.signals k
    let fall := !tb now k && tb c.signals k
    c.srcLevel k ≠ 0 && ((c.srcSense k == 1 && rise) || (c.srcSense k == 2 && (rise || fall)))
  { c with
    signals := now
    latched := loop 64 (fun k m => if latch k then m ||| 2 ^ k else m) c.latched }

/-- A source is pending (R349). -/
def Core.srcPending (c : Core) (k : Nat) : Bool :=
  c.srcLevel k ≠ 0 && (if c.srcSense k = 0 then tb c.signals k else tb c.latched k)
/-- A source is in service (R356, R357). -/
def Core.inService (c : Core) (k : Nat) : Bool := c.claims.any fun x => x.src == k

/-- The pending sources as a mask, for ICU_PENDING (R359). -/
def Core.pendingMask (c : Core) : Nat := loop 64 (fun k m => if c.srcPending k then m ||| 2 ^ k else m) 0
/-- The sources in service as a mask, for ICU_INSERV. -/
def Core.servMask (c : Core) : Nat := loop 64 (fun k m => if c.inService k then m ||| 2 ^ k else m) 0

/-- The current level of a thread (R352). -/
def Core.curLevel (c : Core) (t : Nat) : Nat :=
  max (c.rbits (O.ICU_T_CTRL + 4 * t) 2 0) (c.thread t).level

/-- The level that thread t would enter at a word boundary, 0 for none (R352, R353). -/
def Core.eligible (c : Core) (t : Nat) : Nat :=
  loop 64 (fun k m =>
    if c.srcPending k && !c.inService k && c.srcTargets k t && decide (c.curLevel t < c.srcLevel k) then
      max m (c.srcLevel k) else m) 0

/-- Whether a source wakes waiting thread t (R360). -/
def Core.wakes (c : Core) (t : Nat) : Bool :=
  (List.range 64).any fun k => c.srcPending k && !c.inService k && c.srcTargets k t

/-- INST_TVEC as an offset of SEG[0] (R343). -/
def Core.tvec (c : Core) : Nat := c.rbits O.INST_TVEC 31 8 * 256

/-- Interrupt entry of level L at thread t's word boundary (R354). -/
def Core.enterInterrupt (c : Core) (t level : Nat) : Core :=
  c.modThread t fun x =>
    { x with
      stack := ⟨x.pc, x.inTrap, x.level⟩ :: x.stack
      inTrap := false
      waiting := false
      level := level
      pc := BitVec.ofNat 32 (c.tvec + 4 * (16 + level))
      pos := x.pos + 4 }

/-- Claim by thread t (R356): what the load returns, and the controller after it. -/
def Core.claim (c : Core) (t : Nat) : Word × Core :=
  let x := c.thread t
  let depth := x.stack.length
  let ok (k : Nat) : Bool := c.srcTargets k t && c.srcPending k && !c.inService k
    && (decide (depth = 0) || decide (c.srcLevel k ≤ x.level))
  let best := (List.range 64).foldl (fun (b : Option Nat) k =>
    if ok k then (match b with
      | none => some k
      | some j => if c.srcLevel j < c.srcLevel k then some k else b)
    else b) none
  match best with
  | none => (0, c)
  | some k => (BitVec.ofNat 32 (2 ^ 31 + k),
      { c with claims := ⟨k, t, depth⟩ :: c.claims, latched := if tb c.latched k then c.latched - 2 ^ k else c.latched })

/-- End the service of a source (R357). -/
def Core.endService (c : Core) (k : Nat) : Core := { c with claims := c.claims.filter fun x => x.src != k }

/-- A write of ICU_SRC_CFG lands (R349, R351, R357): LEVEL 0 or a new SENSE clears a latched state, and LEVEL 0 ends
the service. -/
def Core.setSrcCfg (c : Core) (k : Nat) (v : Word) : Core :=
  let old := c.srcSense k
  let c := c.setReg (O.ICU_SRC_CFG + 4 * k) v
  let c := if (c.srcLevel k = 0 || c.srcSense k ≠ old) && tb c.latched k then { c with latched := c.latched - 2 ^ k } else c
  if c.srcLevel k = 0 then c.endService k else c

/-- A W1C write of ICU_PENDING: latched RISE and BOTH sources clear (R359). `base` is 0 or 32. -/
def Core.clearPending (c : Core) (base v : Nat) : Core :=
  { c with latched := loop 32 (fun b m =>
      if tb v b && c.srcSense (base + b) ≠ 0 && tb m (base + b) then m - 2 ^ (base + b) else m) c.latched }

/-- Start of thread t (R337, R361) by a write stamped s. -/
def Core.startThread (c : Core) (t s : Nat) : Core :=
  { (c.modThread t fun x =>
      { x with run := true, waiting := false, inTrap := false, stack := [], level := 0,
               pc := BitVec.ofNat 32 ((c.reg (O.INST_START_PC + 4 * t)).toNat / 4 * 4), pos := s + 1 }) with
    claims := c.claims.filter fun x => x.thread != t }

/-- Stop of thread t (R337). -/
def Core.stopThread (c : Core) (t : Nat) : Core := c.modThread t fun x => { x with run := false }

end Sys2Proof.Machine
end

