-- ==== Sys2Proof/Machine/Timer.lean ====
section
/-! DEFINITION. General timers, beam timers and the pulses of the event matrix (R363 to R376), and the geometry of the
raster classes (R83). -/
namespace Sys2Proof.Machine

/-- Total lines of a class (R83). -/
def classLines (c : Nat) : Nat := if c = 0 then 280 else if c = 1 then 420 else 630
/-- Dots per line. -/
def classDots (c : Nat) : Nat := if c = 0 then 400 else if c = 1 then 800 else 1200
/-- vc per dot. -/
def classDotVc (c : Nat) : Nat := if c = 0 then 10 else if c = 1 then 5 else 3
/-- vc per line. -/
def classLineVc (c : Nat) : Nat := if c = 2 then 3600 else 4000
/-- vc per frame P_f. -/
def classFrameVc (c : Nat) : Nat := classLines c * classLineVc c
/-- vc from a line's state point to its status point (R103, R152). -/
def classStatusVc (c : Nat) : Nat := if c = 2 then 2880 else 3200
/-- The frame latch, in vc from the frame boundary (R95). -/
def classLatchVc (c : Nat) : Nat := (classLines c - 2) * classLineVc c

/-- VACT and HACT of a timing word, as visible lines and columns (R92). -/
def timingLines (w : Word) : Nat := 4 * wbits w 23 16
/-- Visible columns. -/
def timingCols (w : Word) : Nat := 16 * wbits w 5 0
/-- The class maximum of the timing mode (R92). -/
def timingMax (c : Nat) : Word :=
  BitVec.ofNat 32 (if c = 0 then 60 * 65536 + 20 else if c = 1 then 90 * 65536 + 40 else 135 * 65536 + 60)

/-- The key of an event: its stamp, its class within the stamp, and its place in the class (R81, R220, R277, R363). -/
def keyOf (stamp cls sub : Nat) : Nat := stamp * 65536 + cls * 1024 + sub
/-- The stamp of a key. -/
def keyStamp (k : Nat) : Nat := k / 65536

/-- Insert an effect at its place; of equal keys the older one stays first. -/
def insertMicro (k : Nat) (m : Micro) : List (Nat × Micro) → List (Nat × Micro)
  | [] => [(k, m)]
  | x :: r => if k < x.1 then (k, m) :: x :: r else x :: insertMicro k m r

/-- Queue an effect. -/
def Core.addMicro (c : Core) (k : Nat) (m : Micro) : Core := { c with micro := insertMicro k m c.micro }

/-- Emit a pulse of event source `src` with its stamp (R373). -/
def Core.pulse (c : Core) (stamp src : Nat) : Core := { c with pulses := c.pulses ++ [⟨stamp, src, none⟩] }

/-- TIM_CTRL of timer i. -/
def Core.timCtrl (c : Core) (i : Nat) : Nat := (c.reg (O.TIM_CTRL + 32 * i)).toNat
/-- TIM_COUNT of timer i. -/
def Core.timCount (c : Core) (i : Nat) : Nat := (c.reg (O.TIM_COUNT + 32 * i)).toNat

/-- A match of timer i at stamp s (R367). -/
def Core.timMatch (c : Core) (i s : Nat) : Core := (c.rOr (O.TIM_STATUS + 32 * i) 1).pulse (s + 1) (1 + i)

/-- A wrap of timer i at stamp s (R366): WRAP, the pulse, the end of a ONESHOT, and a match when CMP is 0 (R367). -/
def Core.timWrap (c : Core) (i s : Nat) : Core :=
  let c := (c.rOr (O.TIM_STATUS + 32 * i) 2).pulse (s + 1) (5 + i)
  if bits (c.timCtrl i) 3 2 = 2 then
    { (c.rSet (O.TIM_CTRL + 32 * i) 0 0 0) with timNext := c.timNext.set i none }
  else c

/-- What one tick does to COUNT and DOWN, and whether it wraps (R366). -/
def tickCount (mode top count : Nat) (down : Bool) : Nat × Bool × Bool :=
  if top = 0 then (0, down, true)
  else if mode = 1 then
    if !down && decide (count < top) then (count + 1, false, false)
    else if !down then (count - 1, true, decide (count - 1 = 0))
    else if 0 < count then (count - 1, true, decide (count - 1 = 0))
    else (1, false, false)
  else if count = top then (0, down, true)
  else
    let n := (count + 1) % 2 ^ 32
    (n, down, decide (n = 0))

/-- One tick of timer i at stamp s (R366, R367). -/
def Core.timTick (c : Core) (i s : Nat) : Core :=
  let old := c.timCount i
  let top := (c.reg (O.TIM_TOP + 32 * i)).toNat
  let cmp := (c.reg (O.TIM_CMP + 32 * i)).toNat
  let (n, down, wraps) := tickCount (bits (c.timCtrl i) 3 2) top old (tb (c.reg (O.TIM_STATUS + 32 * i)).toNat 4)
  let c := (c.setReg (O.TIM_COUNT + 32 * i) (BitVec.ofNat 32 n)).rSet (O.TIM_STATUS + 32 * i) 4 4 (b2n down)
  let c := if (n = cmp && old ≠ cmp && decide (cmp ≤ top)) || (wraps && cmp = 0) then c.timMatch i s else c
  if wraps then c.timWrap i s else c

/-- Set the tick schedule of timer i from stamp w on: the next tick of a vc timer that is enabled (R366). -/
def Core.timSchedule (c : Core) (i w : Nat) : Core :=
  let k := c.timCtrl i
  let next := if tb k 0 && bits k 5 4 = 0 then some (w + bits k 31 16 + 1) else none
  { c with timNext := c.timNext.set i next }

/-- A write of TIM_CTRL stamped w, with the value after clamping (R366). -/
def Core.setTimCtrl (c : Core) (i w : Nat) (v : Word) : Core :=
  let old := c.timCtrl i
  let c := c.setReg (O.TIM_CTRL + 32 * i) v
  let new := v.toNat
  if tb old 0 == tb new 0 && bits old 31 16 == bits new 31 16 && bits old 5 4 == bits new 5 4 then c
  else c.timSchedule i w

/-- TIM_RESTART acts as a write stamped t (R370). -/
def Core.timRestart (c : Core) (i t : Nat) : Core :=
  (((c.setReg (O.TIM_COUNT + 32 * i) 0).rSet (O.TIM_STATUS + 32 * i) 4 4 0).rSet (O.TIM_CTRL + 32 * i) 0 0 1).timSchedule i t

/-- A capture: the count is copied, CAPT sets, and CAPT_OVR when CAPT was set (R369). What a read of the same stamp must
undo is kept. -/
def Core.timCapture (c : Core) (i t : Nat) : Core :=
  let st := c.reg (O.TIM_STATUS + 32 * i)
  let was := tb st.toNat 2
  { ((c.setReg (O.TIM_CAPT + 32 * i) (c.reg (O.TIM_COUNT + 32 * i))).rOr (O.TIM_STATUS + 32 * i)
      (if was then 12 else 4)) with
    captSave := c.captSave.set i (some (t, c.reg (O.TIM_CAPT + 32 * i), was, tb st.toNat 3)) }

/-- A program read of TIM_CAPT stamped s (R369): what it returns, and the timer after it. -/
def Core.captRead (c : Core) (i s : Nat) : Word × Core :=
  let o := O.TIM_CAPT + 32 * i
  let st := O.TIM_STATUS + 32 * i
  match c.captSave.getD i none with
  | some (t, old, _, ovr) =>
    if t = s then
      let new := c.reg o
      (old, ({ ((c.setReg o old).rSet st 3 2 (2 * b2n ovr)) with captSave := c.captSave.set i none }).addMicro
        (keyOf (s + 1) 2 0) (.captLate i new))
    else (c.reg o, c.rSet st 2 2 0)
  | none => (c.reg o, c.rSet st 2 2 0)

/-- A late capture lands (R369). -/
def Core.captLand (c : Core) (i : Nat) (v : Word) : Core :=
  (c.setReg (O.TIM_CAPT + 32 * i) v).rOr (O.TIM_STATUS + 32 * i) 4

/-- The first stamp after w at which beam timer j meets its line and dot (R372). -/
def Core.btimStamp (c : Core) (cls j : Nat) : Nat :=
  let at' := (c.reg (O.BTIM_AT + 8 * j)).toNat
  let o := bits at' 25 16 * classLineVc cls + bits at' 10 0 * classDotVc cls
  let w := c.btimW.getD j 0
  if w < o then o else ((w - o) / classFrameVc cls + 1) * classFrameVc cls + o

/-- Beam timer j fires at stamp t (R372). -/
def Core.btimFire (c : Core) (j t : Nat) : Core :=
  ((c.rOr O.BTIM_STATUS (2 ^ j)).rSet (O.BTIM_CTRL + 8 * j) 0 0 0).pulse (t + 1) (9 + j)

end Sys2Proof.Machine
end

