-- ==== Sys2Proof/Machine/Journal.lean ====
section
/-! DEFINITION. The write journal of an instance (R97 to R102): which addresses are beam-sensitive, what a read sees
through it, and how a write enters it and lands. -/
namespace Sys2Proof.Machine

/-- Window offsets of the beam-sensitive registers (R97). -/
def beamReg (off : Nat) : Bool := decide (0x2040 ≤ off) && decide (off < 0x3000)

/-- The state point of a line of a frame (R93). -/
def statePoint (cls frame line : Nat) : Nat := frame * classFrameVc cls + line * classLineVc cls
/-- The state point of a line job. -/
def Inst.jobSp (i : Inst) (j : LineJob) : Nat := statePoint i.adm.cls j.frame j.line

/-- The byte a journal entry gives at an address, if it covers it (R99). -/
def JournalEntry.byteAt (e : JournalEntry) (isReg : Bool) (a : Nat) : Option Byte :=
  if e.isReg == isReg && decide (e.addr ≤ a) then (e.data[a - e.addr]?).join else none

/-- The newest journalled value of a byte (R100). -/
def Inst.journalByte (i : Inst) (isReg : Bool) (a : Nat) : Option Byte :=
  i.journal.foldl (fun r e => match e.byteAt isReg a with | some b => some b | none => r) none

/-- VRAM bytes as a program or an engine reads them, forwarded from the journal (R100). -/
def State.vramView (s : State) (n v len : Nat) : List Byte :=
  let i := s.inst n
  let mem := s.vramBytes n v len
  if i.journal.isEmpty then mem else
  mem.zipIdx.map fun (b, k) => (i.journalByte false (v + k)).getD b

/-- The byte that a held beat gives at an address of a space, if it covers it (R104, R231). -/
def Beat.byteAt (b : Beat) (sp a : Nat) : Option Byte :=
  if b.space ≠ sp then none
  else b.data.foldl (fun r d => match (if d.1 ≤ a then d.2[a - d.1]? else none) with | some x => some x | none => r) none

/-- A held beat stamped below `upto` covers a byte of a span (R104). -/
def Inst.beatHides (i : Inst) (sp a len upto : Nat) : Bool :=
  i.core.beats.any fun b => b.space == sp && decide (b.stamp < upto)
    && b.data.any fun d => decide (d.1 < a + len) && decide (a < d.1 + d.2.length)

/-- A journal entry put at its place among others: behind those of its place and before (R104, R220). -/
def insertEntry (e : JournalEntry) (l : List JournalEntry) : List JournalEntry :=
  l.takeWhile (fun x => decide (x.ord ≤ e.ord)) ++ e :: l.dropWhile fun x => decide (x.ord ≤ e.ord)

/-- The writes of VRAM stamped below `upto` that wait to land, in the order in which they will: journal entries, and the beats
that engines hold, each behind the program writes of its stamp, DMA before blitter (R104, R220, R231). -/
def Inst.waitingWrites (i : Inst) (upto : Nat) : List JournalEntry :=
  let held (dma : Bool) : List JournalEntry :=
    (i.core.beats.filter fun b => b.dma == dma && b.space == 3 && decide (b.stamp < upto)).flatMap fun b =>
      b.data.map fun d => ⟨2 * b.stamp + 1, false, d.1, d.2.map some⟩
  (held true ++ held false).foldl (fun l e => insertEntry e l) i.journal

/-- Bytes of a space read from the device with the writes that wait laid over them: what an engine, the mixer or the cue unit
sees at a point of virtual time (R100, R167, R220, R231). -/
def State.overWaiting (s : State) (n sp upto a : Nat) (mem : List Byte) : List Byte :=
  let i := s.inst n
  if sp = 3 then
    if i.beatHides 3 a mem.length upto then
      let ws := i.waitingWrites upto
      mem.zipIdx.map fun (b, k) =>
        (ws.foldl (fun r e => match e.byteAt false (a + k) with | some x => some x | none => r) none).getD b
    else mem.zipIdx.map fun (b, k) => (i.journalByte false (a + k)).getD b
  else if i.beatHides sp a mem.length upto then
    mem.zipIdx.map fun (b, k) =>
      (i.core.beats.foldl (fun r x => if x.stamp < upto then (x.byteAt sp (a + k)).or r else r) none).getD b
  else mem

/-- A beam-sensitive register as it stands with the journal applied (R100). -/
def Inst.regView (i : Inst) (off : Nat) : Word :=
  let w := i.core.reg off
  if i.journal.isEmpty then w else
  BitVec.ofNat 32 (leNat ((leBytes 4 w.toNat).zipIdx.map fun (b, k) => (i.journalByte true (off + k)).getD b))

/-- The credits that an instance holds at its write-behind queue (R28, R582); DEDUCED: they bound its journal. -/
def State.journalCap (s : State) (n : Nat) : Nat :=
  min 64 (creditSum (s.image.credits.filter fun c => c.pkind == 1 && c.prod == n) 8 n 0)

/-- A write issued now enters the journal rather than landing (R98): a line handed over is not yet captured, or the
journal holds an entry. -/
def Inst.holdsWrites (i : Inst) : Bool := !i.jobs.isEmpty || !i.journal.isEmpty

/-- A write that would need a journal entry finds none (R102). -/
def State.journalFull (s : State) (n : Nat) : Bool :=
  let i := s.inst n
  i.holdsWrites && decide (s.journalCap n ≤ i.journal.length)

/-- Note that an instance's frame had activity (R259). -/
def Inst.markActive (i : Inst) (frame : Nat) : Inst :=
  if i.active.contains frame then i else { i with active := frame :: i.active }

/-- Note activity in the frame of a stamp when a landing has changed what it lands on (R259). -/
def State.noteActivity (s : State) (n stamp : Nat) (changed : Bool) : State :=
  if changed then s.modInst n fun i => i.markActive (stamp / classFrameVc i.adm.cls) else s

/-- VRAM bytes land at a stamp (R259). -/
def State.landVram (s : State) (n stamp v : Nat) (data : List Byte) : State :=
  (s.wrVram n v data).noteActivity n stamp (decide (s.vramBytes n v data.length ≠ data))

/-- A journal entry lands in memory or in its register (R98). -/
def State.landEntry (s : State) (n : Nat) (e : JournalEntry) : State :=
  if e.isReg then
    if e.data.isEmpty then s else
    let old := (s.core n).reg e.addr
    let new : Word := BitVec.ofNat 32 (leNat ((leBytes 4 old.toNat).zipIdx.map fun (b, k) => ((e.data[k]?).join).getD b))
    (s.modCore n fun c => c.setReg e.addr new).noteActivity n (e.ord / 2) (decide (new ≠ old))
  else
    if e.data.all Option.isSome then s.landVram n (e.ord / 2) e.addr (e.data.map fun b => b.getD 0)
    else (e.data.zipIdx.filterMap fun (b, k) => b.map fun x => (e.addr + k, x)).foldl
        (fun s x => s.landVram n (e.ord / 2) x.1 [x.2]) s

/-- A beam-sensitive write: journalled when it must be held, else landed at once (R98). -/
def State.beamWrite (s : State) (n : Nat) (e : JournalEntry) : State :=
  if (s.inst n).holdsWrites then s.modInst n fun i => { i with journal := i.journal ++ [e] } else s.landEntry n e

/-- The head entry may retire: every visible line whose state point is at or before its stamp is captured, and no held beat of
VRAM comes before it (R98, R104). -/
def Inst.headFree (i : Inst) : Bool :=
  match i.journal with
  | [] => false
  | e :: _ => (i.jobs.all fun j => decide (e.ord ≤ 2 * i.jobSp j))
      && i.core.beats.all fun b => e.isReg || b.space != 3 || decide (e.ord ≤ 2 * b.stamp + 1)

/-- A line job may be dispatched: every write stamped before its state point has landed, of programs and of engines (R101,
R219, R220). -/
def Inst.jobReady (i : Inst) (j : LineJob) : Bool :=
  (i.journal.all fun e => decide (2 * i.jobSp j < e.ord)) && i.core.beats.all fun b => decide (i.jobSp j ≤ b.stamp)

/-- Every visible line whose state point is at or before a stamp is captured, and no journal entry of that stamp or before is
left (R104). -/
def Inst.beatFree (i : Inst) (stamp : Nat) : Bool :=
  (i.jobs.all fun j => decide (stamp < i.jobSp j)) && i.journal.all fun e => decide (2 * stamp + 1 < e.ord)

/-- A beat keeps its place in the order of events: one that lines alone hold back keeps nothing else waiting (R104, R231), but one
for host memory does, since its leaf may yet fail (R225, R389, R425). -/
def Inst.beatTurn (i : Inst) (b : Beat) : Bool := b.space == 1 || i.beatFree b.stamp

end Sys2Proof.Machine
end

