-- ==== Sys2Proof/Machine/Agenda.lean ====
section
/-! DEFINITION. The order of an instance's events in virtual time (R81, R220, R277, R360, R363): what comes next. Each
event has a key; an event may take place when its key is least and its stamp lies below the boundary of the next frame
to be released (R106). -/
namespace Sys2Proof.Machine

/-- The kinds of event that wait for their place in virtual time. -/
inductive Due where
  /-- the mixer computes its next sample (class 0, R277) -/
  | sample
  /-- an effect of the queue `micro` -/
  | micro
  /-- the status point of a line that is not yet rendered and whose status matters (R103) -/
  | status
  /-- the next state point (R93) -/
  | line
  /-- the next frame latch (R95) -/
  | latch
  /-- a pulse of an event source, or its delayed action at a target (R376, R518) -/
  | pulse (src : Nat) (act : Option Nat)
  /-- a prescaler tick of timer i (R366) -/
  | tick (i : Nat)
  /-- beam timer j fires (R372) -/
  | btim (j : Nat)
  /-- thread t begins a word, enters an interrupt or wakes -/
  | thread (t : Nat)
  /-- an engine beat lands (R104) -/
  | beat
  /-- the checks of DMA channel c (R383) -/
  | dmaCheck (c : Nat)
  /-- the pipe reads a DMA beat (R384) -/
  | dmaRead
  /-- the checks of the next blit job (R221) -/
  | blitStart
  /-- the next blit beat reads (R219) -/
  | blitRead
  deriving DecidableEq, Repr

/-- Frames per second of an instance (R83). -/
def Inst.hz (i : Inst) : Nat := if i.adm.rate50 then 50 else 60
/-- Audio samples per second (R276). -/
def Inst.fs (i : Inst) : Nat := if i.adm.aud32 then 32000 else 48000
/-- P_f of the instance's class. -/
def Inst.frameVc (i : Inst) : Nat := classFrameVc i.adm.cls
/-- The start of audio sample k (R86). -/
def Inst.sampleStamp (i : Inst) (k : Nat) : Nat := cdiv (k * i.frameVc * i.hz) i.fs
/-- The number of the newest sample that begins at or before a stamp (R298). -/
def Inst.sampleAt (i : Inst) (stamp : Nat) : Nat := stamp * i.fs / (i.frameVc * i.hz)
/-- The first stamp that waits for a release (R106). -/
def Inst.limit (i : Inst) : Nat := i.released * i.frameVc

/-- The place at which waiting thread t wakes, if a source wakes it (R360). -/
def Core.wakeStamp (c : Core) (t : Nat) : Nat :=
  let p := (c.thread t).pos
  let k := keyStamp c.lastKey
  if c.lastKey < keyOf p 5 t then p
  else if c.lastKey < keyOf k 5 t then k
  else k + 1

/-- Thread t as an event. -/
def Core.threadDue (c : Core) (t : Nat) : List (Nat × Due) :=
  let x := c.thread t
  if !x.run then []
  else if x.waiting then (if c.wakes t then [(keyOf (c.wakeStamp t) 5 t, .thread t)] else [])
  else [(keyOf x.pos 5 t, .thread t)]

/-- The status of an unfinished line matters to the order of events: an enabled interrupt source may change with it, or
it captures into VRAM (R103, R200, R353). -/
def Inst.statusHard (i : Inst) (live : Map Word) : Bool :=
  [18, 19, 20, 21, 22, 28, 29, 30].any (fun k => i.core.srcLevel k ≠ 0)
    || tb (live.get windowReset O.CMP_CAP_CTRL).toNat 0

/-- Channels of the DMA unit that passed their checks and have beats left (R384). -/
def Core.dmaReady (c : Core) : List Nat :=
  (List.range 4).filter fun k =>
    let x := c.dma.getD k {}
    x.active && x.checked && decide (x.next * 64 < x.count)

/-- The stamp at which the pipe reads its next beat (R384). -/
def Core.dmaReadAt (c : Core) : Option Nat :=
  match c.dmaReady with
  | [] => none
  | k :: r => some (max c.pipeFree
      (r.foldl (fun m j => min m ((c.dma.getD j {}).start + 2)) ((c.dma.getD k {}).start + 2)))

/-- All beats of a blit job (R219, R224). -/
def BlitJob.beats (j : BlitJob) : Nat := j.desc.passes.1 + j.desc.passes.2

/-- The engines' next events. -/
def Core.engineDue (c : Core) : List (Nat × Due) :=
  ((List.range 4).filterMap fun k =>
        let x := c.dma.getD k {}
        if x.active && !x.checked then some (keyOf (x.start + 2) 7 k, Due.dmaCheck k) else none)
    ++ (match c.dmaReadAt with | some u => [(keyOf u 7 8, Due.dmaRead)] | none => [])
    ++ (match c.blits with
        | [] => []
        | j :: _ =>
          if !j.checked then [(keyOf (max (j.stamp + 2) c.blitEnd) 7 16, Due.blitStart)]
          else if j.next < j.beats then [(keyOf (j.start + j.next) 7 24, Due.blitRead)] else [])

/-- Every event that waits for its place. -/
def Inst.dues (i : Inst) : List (Nat × Due) :=
  let c := i.core
  let cls := i.adm.cls
  let line := c.nextLine * classLineVc cls
  let open' := (i.jobs.map fun j => (i.jobSp j, j.live)) ++ (i.rendering.map fun r => (i.jobSp r.job, r.job.live))
  [(keyOf (i.sampleStamp c.mix.next) 0 0, Due.sample), (keyOf line 1 2, Due.line),
    (keyOf (c.nextLtch * i.frameVc + classLatchVc cls) 1 3, Due.latch)]
    ++ (c.micro.take 1).map (fun m => (m.1, Due.micro))
    ++ ((open'.filter fun o => i.statusHard o.2).map fun o => (keyOf (o.1 + classStatusVc cls) 1 1, Due.status))
    ++ (c.pulses.map fun p => (keyOf p.stamp 2 (match p.act with | none => 0 | some t => t + 1), Due.pulse p.src p.act))
    ++ ((List.range 4).filterMap fun k => (c.timNext.getD k none).map fun s => (keyOf s 3 k, Due.tick k))
    ++ ((List.range 4).filterMap fun k =>
        if tb (c.reg (O.BTIM_CTRL + 8 * k)).toNat 0 then some (keyOf (c.btimStamp cls k) 4 k, Due.btim k) else none)
    ++ ((List.range i.adm.slots).flatMap c.threadDue)
    ++ ((c.beats.filter i.beatTurn).map fun b => (keyOf b.stamp 6 (if b.dma then 0 else 1), Due.beat))
    ++ c.engineDue

/-- The event of least key; of equal keys, the one listed first. -/
def leastDue : List (Nat × Due) → Option (Nat × Due)
  | [] => none
  | x :: r => match leastDue r with
    | none => some x
    | some y => if y.1 < x.1 then some y else some x

/-- A REWIND has started: each thread stops at its next word boundary (R440). -/
def Inst.rewinding (i : Inst) : Bool :=
  match i.running with
  | some c => c.op == 7 && !c.queued && c.ended.isNone
  | none => false

/-- The instance executes: it is admitted and Playing, and no REWIND has stopped it (R362, R440). -/
def Inst.runs (i : Inst) : Bool := i.adm.state == 2 && decide (i.rung = .playing) && !i.rewinding

/-- Every thread has passed a stamp, waits, or does not run (R104). -/
def Inst.threadsPast (i : Inst) (stamp : Nat) : Bool :=
  (List.range i.adm.slots).all fun t => let x := i.core.thread t; !x.run || x.waiting || decide (stamp < x.pos)

/-- The event whose turn it is: it has the least key and lies below the first boundary that waits for a release. -/
def Inst.turn (i : Inst) : Option (Nat × Due) :=
  if !i.runs then none else
  match leastDue i.dues with
  | some (k, d) => if keyStamp k < i.limit then some (k, d) else none
  | none => none

/-- Whether it is the turn of an event, with its key. -/
def Inst.turnOf (i : Inst) (d : Due) : Option Nat :=
  match i.turn with
  | some (k, e) => if e = d then some k else none
  | none => none

/-- Note that the event of key k has taken effect, and let the interrupt controller follow (R349). -/
def Core.passed (c : Core) (k : Nat) : Core := { c with lastKey := max c.lastKey k }.sense

/-- The position from which the host path reads a Playing instance (R580). -/
def Inst.livePos (i : Inst) : Nat :=
  let ts := (List.range i.adm.slots).map i.core.thread
  match ts.filter fun x => x.run && !x.waiting with
  | [] => ts.foldl (fun a x => max a x.pos) 0
  | x :: r => r.foldl (fun a y => min a y.pos) x.pos

/-- The host position (R580), which does not move outside Playing. -/
def Inst.hostPos (i : Inst) : Nat := if i.rung = .playing then i.livePos else i.hostAt

/-- A line of the instance is unfinished at a stamp at or after its status point (R103). -/
def Inst.statusOpen (i : Inst) (stamp : Nat) : Bool :=
  let late (j : LineJob) : Bool := decide (i.jobSp j + classStatusVc i.adm.cls ≤ stamp)
  i.jobs.any late || i.rendering.any fun r => late r.job

end Sys2Proof.Machine
end

