-- ==== Sys2Proof/Machine/Engines.lean ====
section
/-! DEFINITION. The engines of an instance: its DMA channels (12_dma.md, R382 to R389), its blit jobs (07_blitter.md), the
targets of the event matrix (R374), and the effects that fall at fixed places of virtual time. -/
namespace Sys2Proof.Machine

/-- The registers of segment i (R310, R344). -/
def Core.seg (c : Core) (i : Nat) : SegVal :=
  ⟨(c.reg (O.SEG_BASE + 16 * i)).toNat, (c.reg (O.SEG_LIMIT + 16 * i)).toNat, (c.reg (O.SEG_CTRL + 16 * i)).toNat⟩
/-- SPACE of a segment (R310). -/
def SegVal.space (g : SegVal) : Nat := bits g.ctrl 6 4

/-- The size of a space of instance n (R310). -/
def State.spaceSize (s : State) (n sp : Nat) : Nat :=
  match sp with
  | 1 => (s.span n).2 * 0x1000000
  | 2 => s.workSize n
  | 3 => s.quota n
  | 4 => 65536
  | _ => 0

/-- Read a span of a space as an engine does, byte by byte across leaves (R386, R423). -/
def State.rdSpan (s : State) (n sp a len : Nat) : ReadOut :=
  match sp with
  | 1 =>
    let first := min len (65536 - a % 65536)
    match s.rdCart n a first false with
    | .ok d s =>
      if first < len then
        match s.rdCart n (a + first) (len - first) false with
        | .ok e s => .ok (d ++ e) s
        | r => r
      else .ok d s
    | r => r
  | _ => s.rdSpace n sp a len false

/-- Read a span of a space as an engine does at stamp u: with every write of u or before that waits to land (R100, R220). -/
def State.rdEngine (s : State) (n u sp a len : Nat) : ReadOut :=
  match s.rdSpan n sp a len with
  | .ok d s => .ok (s.overWaiting n sp (u + 1) a d) s
  | r => r

/-- Write a span of a space as an engine does. -/
def State.wrEngine (s : State) (n sp a : Nat) (data : List Byte) : Except (Nat × Nat) State :=
  let first := if sp = 1 then min data.length (65536 - a % 65536) else data.length
  match s.wrSpace n sp a (data.take first) with
  | .error e => .error e
  | .ok s => if first < data.length then s.wrSpace n sp (a + first) (data.drop first) else .ok s

/-- A report of an uncorrectable error that takes no reaction (R529, R536). -/
def State.report (s : State) (n addr : Nat) : State := s.addRec 4 0 n 0xFFFF addr

/-- What becomes of an uncorrectable word that instance n has met: of the Pool with the cause given, of the HBM with UE_HBM; a dirty
leaf's is its owner's fault, a clean leaf is dropped, to be fetched again, and reported; one of a shared table is a chip fault (R407,
R417, R529, R532). -/
def State.ueMet (s : State) (n cause : Nat) (x : WordAt) : State :=
  let a := s.errAddr x
  match x.mem with
  | .pool => s.foundFault n cause a
  | .hbm => s.foundFault n 4 a
  | .vault | .ext => s.foundChip 8 a
  | .leaf e l => match s.leaf? e l with
    | some y =>
      if y.dirty then s.foundFault ((s.wordOwner x).getD n) 4 a
      else { (s.report n a) with mem := { s.mem with leaves := s.mem.leaves.filter fun z => !(z.extent == e && z.leaf == l) } }
    | none => s

/-- A missing leaf that a write of a span would wait for (R425), or an uncorrectable word that it would write in part
(R389, R406). -/
def State.wrBlocked (s : State) (n sp a len : Nat) : Option (Nat × Nat) × Option WordAt :=
  let leafOf (a : Nat) : Option (Nat × Nat) :=
    match s.cartAt n a true with
    | .leaf e l _ => if (s.leaf? e l).isNone then some (e, l) else none
    | _ => none
  let part (m : MemId) (a len : Nat) : Option WordAt :=
    ((s.badOf m).2.find? fun w => decide (8 * w < a + len) && decide (a < 8 * w + 8)
      && !(decide (a ≤ 8 * w) && decide (8 * w + 8 ≤ a + len))).map fun w => ⟨m, w⟩
  let piece (a len : Nat) : Option WordAt :=
    match s.cartAt n a true with
    | .hbm h => part .hbm h len
    | .leaf e l o => part (.leaf e l) o len
    | .fault _ => none
  match sp with
  | 1 =>
    let first := min len (65536 - a % 65536)
    if first < len then ((leafOf a).or (leafOf (a + first)), (piece a first).or (piece (a + first) (len - first)))
    else (leafOf a, piece a len)
  | 2 => (none, part .hbm ((s.inst n).adm.workB + a) len)
  | 3 => (none, part .pool (s.vramAt n a) len)
  | _ => (none, none)

/-- A start of DMA channel c stamped s (R382). -/
def Core.dmaStart (c : Core) (k s : Nat) : Core :=
  let x := c.dma.getD k {}
  if x.active then c.rOr (O.DMA_STATUS + 32 * k) 8 else
  let ctrl := (c.reg (O.DMA_CTRL + 32 * k)).toNat
  let x : DmaXfer :=
    { active := true, start := s, prio := bits ctrl 5 4, count := (c.reg (O.DMA_COUNT + 32 * k)).toNat % 2 ^ 25,
      src := (c.reg (O.DMA_SRC + 32 * k)).toNat, dst := (c.reg (O.DMA_DST + 32 * k)).toNat,
      srcSeg := bits ctrl 10 8, dstSeg := bits ctrl 14 12 }
  { c with dma := c.dma.set k x }.addMicro (keyOf (s + 2) 1 1) (.dmaPre k)

/-- The checks of one side of a transfer: the result code and ERR_ADDR, none when it passes (R383). -/
def State.segSide (s : State) (n : Nat) (g : SegVal) (right start count : Nat) : Option (Nat × Nat) :=
  let last := start + count - 1
  let size := s.spaceSize n g.space
  if g.space = 0 then some (1, start)
  else if !tb g.ctrl right then some (2, start)
  else if g.space = 4 then some (5, start)
  else if g.limit < last then some (3, max start (g.limit + 1))
  else if size ≤ g.base * 1024 + last then some (4, max start (size - g.base * 1024))
  else none

/-- The end of a transfer of channel k at E (R385, R388, R389). -/
def Core.dmaEnd (c : Core) (k e result side addr : Nat) : Core :=
  let st := O.DMA_STATUS + 32 * k
  let c := { c with dma := c.dma.set k { (c.dma.getD k {}) with active := false } }
  let c := c.rSet st 11 8 result
  if result = 0 then c.pulse e (13 + k)
  else (((c.rSet st 4 4 side).rOr st 2).setReg (O.DMA_ERR_ADDR + 32 * k) (BitVec.ofNat 32 addr)).pulse e (17 + k)

/-- How a transfer ends at s + 2: its result, side and ERR_ADDR; none where its checks pass (R383). -/
def State.dmaVerdict (s : State) (n : Nat) (x : DmaXfer) : Option (Nat × Nat × Nat) :=
  let c := s.core n
  if x.count = 0 then some (0, 0, 0) else
  match s.segSide n (c.seg x.srcSeg) 0 x.src x.count, s.segSide n (c.seg x.dstSeg) 1 x.dst x.count with
  | some (r, a), _ => some (r, 0, a)
  | none, some (r, a) => some (r, 1, a)
  | none, none => none

/-- The end of a transfer that writes nothing falls at s + 2 before the program accesses of that stamp (R363, R376, R381,
R383). -/
def State.dmaPre (s : State) (n k t : Nat) : State :=
  let x := (s.core n).dma.getD k {}
  if x.active && !x.checked && x.start + 2 == t then
    match s.dmaVerdict n x with
    | some (r, side, a) => s.modCore n fun c => c.dmaEnd k t r side a
    | none => s
  else s

/-- The checks of channel k at s + 2, after the program accesses of that stamp (R383): the segments are fixed. DEDUCED: a
segment write of s + 2 that makes a check fail ends the transfer here, after the accesses that R381 would put behind its end. -/
def State.dmaCheck (s : State) (n k : Nat) : State :=
  let x := (s.core n).dma.getD k {}
  match s.dmaVerdict n x with
  | some (r, side, a) => s.modCore n fun c => c.dmaEnd k (x.start + 2) r side a
  | none => s.modCore n fun c => { c with dma := c.dma.set k { x with checked := true, sv := c.seg x.srcSeg, dv := c.seg x.dstSeg } }

/-- The channel that the pipe serves (R384). -/
def Core.dmaPick (c : Core) : Option Nat :=
  let el := c.dmaReady
  let prio k := (c.dma.getD k {}).prio
  let top := el.foldl (fun m k => max m (prio k)) 0
  match c.pipeLast.bind fun k => if el.contains k && prio k = top then some k else none with
  | some k => some k
  | none => el.find? fun k => prio k = top

/-- What becomes of an engine's next beat (R82): it is done; it has met a word that is its instance's or the chip's fault, or whose
clean leaf is fetched again (R417), and is yet to come; there is nothing to do, or no room to hold it; or a leaf is missing. -/
inductive BeatOut where
  | done (s : State)
  | again (s : State)
  | stall
  | wait (e l : Nat)

/-- Queue what follows the read of a beat of channel k: the fall of COUNT at its write stamp, and the end of the
transfer after its last beat or at a failure (R384, R385, R389). -/
def Core.dmaAfter (c : Core) (k u len : Nat) (beat : Option Beat) (fail : Option (Nat × Nat × Nat)) : Core :=
  let x := c.dma.getD k {}
  let e := u + cdiv len 32
  let last := x.count ≤ 64 * (x.next + 1)
  let c := { c with
    dma := c.dma.set k { x with next := if fail.isSome then cdiv x.count 64 else x.next + 1, written := x.written + len }
    pipeFree := e, pipeLast := some k
    beats := c.beats ++ beat.toList }
  let c := c.addMicro (keyOf e 1 1) (.dmaCount k len)
  match fail with
  | some (r, side, a) => c.addMicro (keyOf e 1 1) (.dmaEnd k r side a)
  | none => if last then c.addMicro (keyOf e 1 1) (.dmaEnd k 0 0 0) else c

/-- An uncorrectable word of the Pool or of the HBM ends the transfer or job that reads it with MEM_ERR (R389, R225, R407). -/
def ueEnds (x : WordAt) : Bool :=
  match x.mem with | .pool | .hbm => true | _ => false

/-- The pipe reads a beat at stamp u (R384, R386). A leaf that either side misses is waited for (R425). -/
def State.dmaBeat (s : State) (n u : Nat) : BeatOut :=
  let c := s.core n
  match c.dmaPick with
  | none => .stall
  | some k =>
    let x := c.dma.getD k {}
    let o := 64 * x.next
    let len := min 64 (x.count - o)
    if 16 ≤ (c.beats.filter fun b => b.dma && b.unit == k).length then .stall else
    let da := x.dv.base * 1024 + x.dst + o
    match s.wrBlocked n x.dv.space da len with
    | (some (e, l), _) => .wait e l
    | (none, bad) =>
      match s.rdEngine n u x.sv.space (x.sv.base * 1024 + x.src + o) len with
      | .wait e l => .wait e l
      | .ue y s =>
        if ueEnds y then .done ((s.report n (s.errAddr y)).modCore n fun c => c.dmaAfter k u len none (some (6, 0, x.src + o)))
        else .again (s.ueMet n 1 y)
      | .ok data s =>
        match bad with
        | some y =>
          if ueEnds y then
            .done (((s.eccUe y 0).report n (s.errAddr y)).modCore n fun c => c.dmaAfter k u len none (some (6, 1, x.dst + o)))
          else .again ((s.eccUe y 0).ueMet n 1 y)
        | none => .done (s.modCore n fun c =>
            c.dmaAfter k u len (some ⟨u + cdiv len 32, true, k, x.dv.space, [(da, data)]⟩) none)

/-- The beat of channel k that waits on leaf l of extent e fails with HOST_ERR (R389, R425): on the source side where the read
needs that leaf, and else on the destination side. -/
def State.dmaHostErr (s : State) (n u e l : Nat) : State :=
  let c := s.core n
  match c.dmaPick with
  | none => s
  | some k =>
    let x := c.dma.getD k {}
    let o := 64 * x.next
    let len := min 64 (x.count - o)
    let src := match s.rdEngine n u x.sv.space (x.sv.base * 1024 + x.src + o) len with
      | .wait e' l' => e' == e && l' == l
      | _ => false
    s.modCore n fun c => c.dmaAfter k u len none (some (7, b2n !src, if src then x.src + o else x.dst + o))

/-- A write of 1 to GO stamped s (R215). -/
def Core.bltSubmit (c : Core) (s : Nat) : Core :=
  let r o := (c.reg o).toNat
  let seq := (wbits (c.reg O.BLT_SUBMIT_SEQ) 15 0 + 1) % 65536
  let d : BlitDesc := ⟨r O.BLT_CTRL, r O.BLT_SRC_SURF, r O.BLT_SRC_POS, r O.BLT_DST_SURF, r O.BLT_DST_POS, r O.BLT_SIZE,
    r O.BLT_FILL, r O.BLT_WM, r O.BLT_SCRATCH⟩
  let first := c.blits.isEmpty
  let c : Core := { (c.setReg O.BLT_SUBMIT_SEQ (BitVec.ofNat 32 seq)) with blits := c.blits ++ [{ seq, desc := d, stamp := s }] }
  if first then c.addMicro (keyOf (max (s + 2) c.blitEnd) 1 1) .blitPre else c

/-- Whether a job's scratch segment is usable (R224). -/
def State.scratchOk (s : State) (n : Nat) (d : BlitDesc) (g : SegVal) : Bool :=
  let len := d.n * d.b
  let a := g.base * 1024
  let hit (p : Nat × Nat) : Bool := spansMeet (a, a + len - 1) p
  tb d.scratch 3 && tb g.ctrl 0 && tb g.ctrl 1 && [1, 2, 3].contains g.space && decide (len - 1 ≤ g.limit)
    && decide (a + len - 1 < s.spaceSize n g.space)
    && (g.space != 3 || (!hit d.srcSpan && !hit d.dstSpan))

/-- The job at the head ends at stamp e (R225): DONE_SEQ, LAST_RESULT, ERR or the BLT_DONE pulse; the next job starts
(R219). -/
def Core.blitFinish (c : Core) (e result : Nat) : Core :=
  let st := O.BLT_STATUS
  let c := { c with blits := c.blits.drop 1, blitEnd := e }
  let c := (c.rSet st 31 16 (c.rbits st 31 16 + 1)).rSet st 11 8 result
  let c := if result = 0 then c.pulse e 21 else c.rOr st 2
  match c.blits with
  | [] => c
  | j :: _ => c.addMicro (keyOf (max (j.stamp + 2) e) 1 1) .blitPre

/-- How a job ends at its start: its result; none where it passes its checks and writes (R220, R221). -/
def State.blitVerdict (s : State) (n : Nat) (d : BlitDesc) : Option Nat :=
  let res := d.check (s.quota n) (s.scratchOk n d ((s.core n).seg (bits d.scratch 2 0)))
  if res ≠ 0 || d.n = 0 then some res else none

/-- The end of a job that writes nothing falls at E = S before the program accesses of that stamp (R220, R226, R363, R376). -/
def State.blitPre (s : State) (n t : Nat) : State :=
  match (s.core n).blits with
  | [] => s
  | j :: _ =>
    if !j.checked && max (j.stamp + 2) (s.core n).blitEnd == t then
      match s.blitVerdict n j.desc with
      | some r => s.modCore n fun c => c.blitFinish t r
      | none => s
    else s

/-- The checks of the next job at S, after the program accesses of that stamp (R221, R224): the scratch segment is fixed.
DEDUCED, as for a DMA transfer: a segment write of S that takes the job's scratch away ends it here. -/
def State.blitStart (s : State) (n : Nat) : State :=
  let c := s.core n
  match c.blits with
  | [] => s
  | j :: r =>
    let st := max (j.stamp + 2) c.blitEnd
    match s.blitVerdict n j.desc with
    | some res => s.modCore n fun c => c.blitFinish st res
    | none => s.modCore n fun c => { c with
        blits := { j with start := st, checked := true, scr := c.seg (bits j.desc.scratch 2 0), next := 0 } :: r }

/-- The pixels of beat k of a job: the source of each pixel as (space, address) and its destination, for the pass that
the beat belongs to (R217 to R224). FILL has no source. -/
def BlitJob.pixels (j : BlitJob) : List (Option (Nat × Nat) × Nat × Nat) :=
  let d := j.desc
  let b1 := d.passes.1
  let scr := j.scr.base * 1024
  if j.next < b1 then
    let p0 := 8 * j.next
    (List.range (min 8 (d.n - p0))).map fun i =>
      let p := p0 + i
      (some (3, d.srcAddr (p % d.w) (p / d.w)), j.scr.space, scr + p * d.b)
  else
    let rate := if b1 = 0 then d.rate else 4
    let p0 := rate * (j.next - b1)
    (List.range (min rate (d.n - p0))).map fun i =>
      let (x', y') := d.dstPixel (p0 + i)
      let (x, y) := d.srcOf x' y'
      let src := if d.op = 1 then none
        else if b1 = 0 then some (3, d.srcAddr x y) else some (j.scr.space, scr + (y * d.w + x) * d.b)
      (src, 3, d.dstAddr x' y')

/-- Read the pixels of a beat one after another at stamp u. -/
def State.readPixels (s : State) (n u b fill : Nat) : List (Option (Nat × Nat) × Nat × Nat) →
    List (Nat × List Byte) → ReadOut × List (Nat × List Byte)
  | [], acc => (.ok [] s, acc)
  | (src, _, dst) :: r, acc =>
    match src with
    | none => s.readPixels n u b fill r (acc ++ [(dst, leBytes b fill)])
    | some (sp, a) =>
      match s.rdEngine n u sp a b with
      | .ok d s => s.readPixels n u b fill r (acc ++ [(dst, d)])
      | o => (o, acc)

/-- The watermark bits that the next beat of a job, read at stamp u, sets at its write stamp, if it holds the last pixel of the
row (R229). -/
def BlitJob.wmSets (j : BlitJob) (cls u : Nat) : Option Nat :=
  let d := j.desc
  match d.wmBeat (bits d.wm 11 0) with
  | some k =>
    if tb d.ctrl 8 && decide (d.passes.1 + k = j.next) then
      some (if statePoint cls (j.start / classFrameVc cls) (bits d.wm 25 16) ≤ u + 1 then 12 else 4)
    else none
  | none => none

/-- What follows the read of a blit beat at stamp u: the watermark and the end of the job at the write stamp (R219,
R225, R229). -/
def State.blitAfter (s : State) (n u : Nat) (j : BlitJob) (beat : Option Beat) (fail : Option Nat) : State :=
  let wm := if fail.isSome then none else j.wmSets (s.inst n).adm.cls u
  s.modCore n fun c =>
    let c := { c with blits := { j with next := if fail.isSome then j.beats else j.next + 1 } :: c.blits.drop 1,
                      beats := c.beats ++ beat.toList }
    let c := match wm with
      | some m => c.addMicro (keyOf (u + 1) 1 1) (.blitWm m)
      | none => c
    match fail with
    | some r => c.addMicro (keyOf (u + 1) 1 1) (.blitEnd r)
    | none => if j.next + 1 = j.beats then c.addMicro (keyOf (u + 1) 1 1) (.blitEnd 0) else c

/-- A blit beat reads at stamp u (R219). It waits for a running engine, for room to hold it (R231), and for a missing
scratch leaf (R424). -/
def State.blitBeat (s : State) (n u : Nat) : BeatOut :=
  let c := s.core n
  match c.blits with
  | [] => .stall
  | j :: _ =>
    if j.phase ≠ .running || decide (64 ≤ (c.beats.filter fun b => !b.dma).length) then .stall else
    let px := j.pixels
    let sp := match px with | (_, t, _) :: _ => t | [] => 3
    let block := px.findSome? fun p => (s.wrBlocked n sp p.2.2 j.desc.b).1
    match block with
    | some (e, l) => .wait e l
    | none =>
      match s.readPixels n u j.desc.b j.desc.fill px [] with
      | (.wait e l, _) => .wait e l
      | (.ue y s, _) => if ueEnds y then .done ((s.report n (s.errAddr y)).blitAfter n u j none (some 3)) else .again (s.ueMet n 1 y)
      | (.ok _ s, out) => .done (s.blitAfter n u j (some ⟨u + 1, false, j.seq, sp, out⟩) none)

/-- The first missing leaf that a held beat needs to land. -/
def State.beatLeaf (s : State) (n : Nat) (b : Beat) : Option (Nat × Nat) :=
  b.data.findSome? fun d => (s.wrBlocked n b.space d.1 d.2.length).1

/-- The beat that lands next: the oldest of least stamp, DMA before blitter (R104, R220). -/
def Core.nextBeat (c : Core) : Option Beat :=
  c.beats.foldl (fun m b => match m with
    | none => some b
    | some x => if b.stamp < x.stamp || (b.stamp == x.stamp && b.dma && !x.dma) then some b else some x) none

/-- The next beat lands whole (R104, R386); none while it waits. -/
def State.landBeat (s : State) (n : Nat) : Option State :=
  match (s.core n).nextBeat with
  | none => none
  | some b =>
    if !(s.inst n).beatFree b.stamp || (s.beatLeaf n b).isSome then none else
    let s := b.data.foldl (fun s d =>
      if b.space = 3 then s.landVram n b.stamp d.1 d.2
      else match s.wrEngine n b.space d.1 d.2 with
        | .ok s => s
        | .error _ => s) s
    some (s.modCore n fun c => { c with beats := c.beats.erase b })

/-- KEY_ON[v], or a write of RESTART (R281, R299). -/
def Core.keyOn (c : Core) (v : Nat) : Core :=
  let c := c.rSet (O.AUD_V_CTRL + 64 * v) 31 31 1
  { c with mix := { c.mix with voices := c.mix.voices.modify v fun x => { x with restart := true } } }

/-- A pulse stamped t acts at a target of the event matrix (R374). -/
def Core.evtAct (c : Core) (target t : Nat) : Core :=
  if target < 4 then
    let k := c.timCtrl target
    if tb k 0 && bits k 5 4 = 1 then c.timTick target t else c
  else if target < 8 then c.addMicro (keyOf t 3 16) (.capture (target - 4))
  else if target < 12 then c.timRestart (target - 8) t
  else if target < 16 then c.dmaStart (target - 12) t
  else if target = 16 then c.bltSubmit t
  else if target < 33 then c.keyOn (target - 17)
  else c

/-- The targets whose routes name an event source (R376). -/
def Core.routed (c : Core) (src : Nat) : List Nat :=
  (List.range 33).filter fun k => c.rbits (O.EVT_ROUTE + 4 * k) 5 0 = src

/-- The status point of a line publishes what its renderer found (R152, R155, R191). -/
def Core.lineStatus (c : Core) (v : LineVideo) (cmp : Nat) : Core :=
  let c := c.rOr O.VID_STATUS v.vidStatus
  let st := (c.reg O.SPR_STATUS).toNat
  let c := match v.coll with
    | some k =>
      if bits st 3 2 = 0 then
        (c.setReg O.SPR_COLL_POS (BitVec.ofNat 32 (bits v.lineStat 31 22 * 65536 + k.x))).setReg O.SPR_COLL_PAIR
          (BitVec.ofNat 32 (b2n k.plane * 65536 + k.front * 256 + k.other))
      else c
    | none => c
  let c := c.rOr O.SPR_STATUS v.sprStatus
  let c := c.setReg O.SPR_LINE_STATUS (BitVec.ofNat 32 v.lineStat)
  let c := c.setReg O.SPR_LINE_FLAGS (BitVec.ofNat 32 v.lineFlags)
  c.rOr O.CMP_STATUS cmp

end Sys2Proof.Machine
end

