-- ==== Sys2Proof/Machine/Window.lean ====
section
/-! DEFINITION. The registers of an instance window (R13): what a read returns and changes, and what a write does, for a
program thread at its stamp and for the host (R14, R340, R341, R347, R378, R432, R580). -/
namespace Sys2Proof.Machine

/-- Who makes an access to the window: thread t of the program, or the host. -/
inductive Who where
  | prog (t : Nat)
  | host
  deriving DecidableEq, Repr

/-- General register k of a thread; g0 reads 0 (R301). -/
def Thread.gr (x : Thread) (k : Nat) : Word := if k = 0 then 0 else x.g.get zeroAt k
/-- Write general register k; a write to g0 is discarded (R301). -/
def Thread.setG (x : Thread) (k : Nat) (v : Word) : Thread :=
  if k = 0 then x else { x with g := x.g.set zeroAt k v }

/-- TSTAT of a thread (R302). -/
def Thread.tstat (x : Thread) : Word := BitVec.ofNat 32 (2 * b2n x.waiting + b2n x.inTrap)

/-- A mask over the present threads (R336). -/
def Inst.threadMask (i : Inst) (f : Thread → Bool) : Nat :=
  (List.range i.adm.slots).foldl (fun a t => a + onBit (f (i.core.thread t)) t) 0

/-- The timing mode in force for the frame of a stamp (R84, R120). -/
def Inst.timingAt (i : Inst) (stamp : Nat) : Word :=
  if i.limit ≤ stamp then i.core.timingIn
  else ((i.modes.find? fun m => decide (m.1 * i.frameVc ≤ stamp)).map (·.2)).getD i.core.timing

/-- VID_BEAM at a stamp (R84, R88). -/
def Inst.beamAt (i : Inst) (stamp : Nat) : Word :=
  let cls := i.adm.cls
  let v := stamp % i.frameVc
  let line := v / classLineVc cls
  let dot := v % classLineVc cls / classDotVc cls
  let m := i.timingAt stamp
  BitVec.ofNat 32 (b2n (decide (timingLines m ≤ line)) * 2 ^ 31 + b2n (decide (timingCols m ≤ dot)) * 2 ^ 30
    + line * 65536 + dot)

/-- INST_T_ register at offset `off` of the block 0x400 to 0x7FF (R345); an absent thread reads 0 (R336). -/
def Inst.threadReg (i : Inst) (off : Nat) : Word :=
  let t := (off - 0x400) / 256
  let k := off % 256
  let x := i.core.thread t
  if i.adm.slots ≤ t then 0
  else if k = 0 then x.pc &&& 0xFFFFFFFE
  else if k = 4 then x.tstat
  else if k = 8 then x.epc
  else if k = 12 then x.trapInfo
  else if k = 16 then x.trapCause
  else if k = 20 then x.trapAddr
  else if k = 24 then x.scratch0
  else if k = 28 then x.scratch1
  else if 128 ≤ k then x.gr ((k - 128) / 4)
  else 0

/-- The held high bits that VID_VC_HI or AUD_SAMPLE_HI returns (R91, R298, R580). -/
def Inst.heldHi (i : Inst) (who : Who) (aud : Bool) : Word :=
  match who with
  | .prog t => if aud then (i.core.thread t).sampHi else (i.core.thread t).vcHi
  | .host => if aud then i.sampHi else i.vcHi

/-- Hold high bits for the reader (R91, R580). -/
def Inst.holdHi (i : Inst) (who : Who) (aud : Bool) (v : Nat) : Inst :=
  let w : Word := BitVec.ofNat 32 (v / 2 ^ 32)
  match who with
  | .prog t => { i with core := i.core.modThread t fun x => if aud then { x with sampHi := w } else { x with vcHi := w } }
  | .host => if aud then { i with sampHi := w } else { i with vcHi := w }

/-- The value of a window register outside the blocks at 0x5000 and 0x7000, without the side effects of a read. `stamp` is
the read's stamp, or the host position (R580). -/
def Inst.winValue (i : Inst) (who : Who) (stamp off : Nat) : Word :=
  let c := i.core
  if off = O.INST_THREAD_CTRL then BitVec.ofNat 32 (i.threadMask (·.run))
  else if off = O.INST_THREAD_STATUS then
    BitVec.ofNat 32 (256 * i.threadMask (·.dblTrap) + 16 * i.threadMask (·.waiting))
  else if 0x400 ≤ off && decide (off < 0x800) then i.threadReg off
  else if off = O.INST_PRESENCE then presenceWord i.adm
  else if off = O.ICU_SWINT_CLR then c.reg O.ICU_SWINT_SET
  else if off = O.ICU_PENDING_LO then BitVec.ofNat 32 c.pendingMask
  else if off = O.ICU_PENDING_HI then BitVec.ofNat 32 (c.pendingMask / 2 ^ 32)
  else if off = O.ICU_INSERV_LO then BitVec.ofNat 32 c.servMask
  else if off = O.ICU_INSERV_HI then BitVec.ofNat 32 (c.servMask / 2 ^ 32)
  else if O.ICU_T_CTRL ≤ off && decide (off < O.ICU_T_CTRL + 16) then
    let x := c.thread ((off - O.ICU_T_CTRL) / 4)
    BitVec.ofNat 32 (x.level * 4096 + x.stack.length * 256 + c.rbits off 2 0)
  else if 0x1800 ≤ off && decide (off < 0x1880) && off % 32 = 0x10 then
    wset (c.reg off) 0 0 (b2n (c.dma.getD ((off - 0x1800) / 32) {}).active)
  else if off = O.VID_BEAM then i.beamAt stamp
  else if off = O.VID_LINE_VC then BitVec.ofNat 32 (stamp % classLineVc i.adm.cls)
  else if off = O.VID_FRAME then BitVec.ofNat 32 (stamp / i.frameVc)
  else if off = O.VID_VC_LO then BitVec.ofNat 32 stamp
  else if off = O.VID_VC_HI then i.heldHi who false
  else if off = O.VID_TIMING_STATUS then
    wset c.timingIn 6 6 (b2n (decide (c.reg O.VID_TIMING ≠ c.timingIn)))
  else if O.CUE_CURSOR ≤ off && decide (off < O.CUE_CURSOR + 16) then
    BitVec.ofNat 32 (c.cueCur.getD ((off - O.CUE_CURSOR) / 4) 0)
  else if beamReg off then (match who with | .prog _ => i.regView off | .host => c.reg off)
  else if off = O.CMP_STATUS then wset (c.reg off) 15 15 (b2n c.commit)
  else if off = O.BLT_STATUS then wset (c.reg off) 0 0 (b2n (!c.blits.isEmpty))
  else if off = O.AUD_SAMPLE_LO then BitVec.ofNat 32 (i.sampleAt stamp)
  else if off = O.AUD_SAMPLE_HI then i.heldHi who true
  else if O.AUD_BUS ≤ off && decide (off < O.AUD_BUS + 16) then
    wset (c.reg off) 20 16 (c.mix.counts.getD ((off - O.AUD_BUS) / 4) 0)
  else if 0x4100 ≤ off && decide (off < 0x4500) && off % 64 = 0x1C then
    let v := (off - 0x4100) / 64
    BitVec.ofNat 32 (voicePos (c.rbits (O.AUD_V_CTRL + 64 * v) 9 8) (c.mix.voices.getD v {}))
  else c.reg off

/-- Clear the RC fields of a window register that has been read (R5). -/
def Core.readRc (c : Core) (off : Nat) : Core :=
  match findReg windowRegs off with
  | some (r, _) => if r.flds.any fun f => f.acc == .rc then c.modReg off r.readClear else c
  | none => c

/-- A read of a window register by thread t at its stamp: the value and the state after it (R356, R369, R91). The blocks at
0x5000 and 0x7000 read 0 (R251, R432). -/
def State.progRead (s : State) (n t stamp off : Nat) : Word × State :=
  let i := s.inst n
  let who := Who.prog t
  let set (c : Core) : State := s.modCore n fun _ => c.sense
  if 0x5000 ≤ off && decide (off < 0x6000) || decide (0x7000 ≤ off) then (0, s)
  else if off = O.ICU_CLAIM then
    let (v, c) := i.core.claim t
    (v, set c)
  else if 0x1400 ≤ off && decide (off < 0x1480) && off % 32 = 0x10 then
    let (v, c) := i.core.captRead ((off - 0x1400) / 32) stamp
    (v, set c)
  else
    let v := i.winValue who stamp off
    if off = O.VID_VC_LO then (v, s.setInst n (i.holdHi who false stamp))
    else if off = O.AUD_SAMPLE_LO then (v, s.setInst n (i.holdHi who true (i.sampleAt stamp)))
    else (v, s.modCore n fun c => c.readRc off)

/-- The CLAMP_COUNT register that counts a clamp at a window offset (R8). -/
def clampReg (off : Nat) : Nat :=
  if off < 0x1000 then O.INST_CORE_CLAMP_COUNT
  else if off < 0x1400 then O.ICU_CLAMP_COUNT
  else if off < 0x1800 then O.TIM_CLAMP_COUNT
  else if off < 0x2000 then O.DMA_CLAMP_COUNT
  else if off < 0x2800 then O.VID_CLAMP_COUNT
  else if off < 0x3000 then O.CUE_CLAMP_COUNT
  else if off < 0x3800 then O.CMP_CLAMP_COUNT
  else if off < 0x4000 then O.BLT_CLAMP_COUNT
  else if off < 0x5000 then O.AUD_CLAMP_COUNT
  else O.EVT_CLAMP_COUNT

/-- A number clamped into a range, with the count of clamps. -/
def clampN (lo hi v : Nat) : Nat × Nat := if v < lo then (lo, 1) else if hi < v then (hi, 1) else (v, 0)

/-- The limits that depend on the raster class: VID_TIMING (R92) and BTIM_AT (R371). -/
def classClamp (cls off : Nat) (w : Word) : Word × Nat :=
  if off = O.VID_TIMING then
    let m := timingMax cls
    let (v, a) := clampN 32 (wbits m 23 16) (wbits w 23 16)
    let (h, b) := clampN 8 (wbits m 5 0) (wbits w 5 0)
    (BitVec.ofNat 32 (v * 65536 + h), a + b)
  else if 0x1500 ≤ off && decide (off < 0x1520) && off % 8 = 4 then
    let (l, a) := clampN 0 (classLines cls - 1) (wbits w 25 16)
    let (d, b) := clampN 0 (classDots cls - 1) (wbits w 10 0)
    (BitVec.ofNat 32 (l * 65536 + d), a + b)
  else (w, 0)

/-- A write of a thread's INST_T_ registers (R341, R345): PC, EPC, SCRATCH0, SCRATCH1 and G land, the others are ignored. -/
def Inst.threadRegWrite (i : Inst) (off : Nat) (v : Word) : Inst :=
  let t := (off - 0x400) / 256
  let k := off % 256
  if i.adm.slots ≤ t then i else
  { i with core := i.core.modThread t fun x =>
      if k = 0 then { x with pc := v &&& 0xFFFFFFFE }
      else if k = 8 then { x with epc := v &&& 0xFFFFFFFE }
      else if k = 24 then { x with scratch0 := v }
      else if k = 28 then { x with scratch1 := v }
      else if 128 ≤ k then x.setG ((k - 128) / 4) v
      else x }

/-- A write of RUN stamped s (R337, R342). -/
def Inst.runWrite (i : Inst) (s : Nat) (v : Word) : Inst :=
  { i with core := loop i.adm.slots (fun t c =>
      let on := tb v.toNat t
      if on == (c.thread t).run then c else if on then c.startThread t s else c.stopThread t) i.core }

/-- A write of AUD_V_CTRL of voice v, with the value after clamping: a change of ROUTE to or from BYPASS is a hard switch
(R291), and RESTART sets KEY and keys the voice on (R281). -/
def Core.voiceCtrl (c : Core) (v : Nat) (w : Word) (restart : Bool) : Core :=
  let off := O.AUD_V_CTRL + 64 * v
  let old := c.rbits off 13 12
  let new := wbits w 13 12
  let c := c.setReg off w
  let c := if old ≠ new && isHard old new then
      { c with mix := { c.mix with voices := c.mix.voices.modify v fun x => { x with hard := some new } } }
    else c
  if restart then c.keyOn v else c

/-- DMA registers of one channel, written at stamp s (R382): while the channel is active a write is ignored and sets
IGNORED; otherwise the fields land and START acts after them. -/
def Core.dmaWrite (c : Core) (off s : Nat) (w new : Word) : Core :=
  let k := (off - 0x1800) / 32
  if (c.dma.getD k {}).active then c.rOr (O.DMA_STATUS + 32 * k) 8
  else
    let c := c.setReg off w
    if off % 32 = 0 && tb new.toNat 0 then c.dmaStart k s else c

/-- What a landed write does to instance state: `w` is the register's word after access types and clamping, `new` the
value written, `s` the stamp (R340, R347, R187, R215, R281, R372, R375). Beam-sensitive registers go another way. -/
def Core.winPut (c : Core) (who : Who) (off s : Nat) (w new : Word) : Core :=
  if off = O.ICU_EOI then c.endService (wbits new 5 0)
  else if off = O.ICU_SWINT_CLR then c.modReg O.ICU_SWINT_SET fun x => x &&& ~~~ (new &&& 0xFF)
  else if off = O.ICU_PENDING_LO then c.clearPending 0 new.toNat
  else if off = O.ICU_PENDING_HI then c.clearPending 32 new.toNat
  else if 0x1100 ≤ off && decide (off < 0x1200) then
    match who with
    | .prog _ => c.addMicro (keyOf (s + 1) 1 0) (.srcCfg ((off - 0x1100) / 4) w)
    | .host => c.setSrcCfg ((off - 0x1100) / 4) w
  else if 0x1400 ≤ off && decide (off < 0x1480) && off % 32 = 0 then c.setTimCtrl ((off - 0x1400) / 32) s w
  else if 0x1500 ≤ off && decide (off < 0x1520) then
    let j := (off - 0x1500) / 8
    let was := tb (c.reg (O.BTIM_CTRL + 8 * j)).toNat 0
    let c := c.setReg off w
    if was || tb (c.reg (O.BTIM_CTRL + 8 * j)).toNat 0 then { c with btimW := c.btimW.set j s } else c
  else if off = O.CMP_COMMIT then (if tb new.toNat 0 then { c with commit := true } else c)
  else if off = O.BLT_SUBMIT then (if tb new.toNat 0 then c.bltSubmit s else c)
  else if 0x4100 ≤ off && decide (off < 0x4500) && off % 64 = 0 then
    c.voiceCtrl ((off - 0x4100) / 64) w (tb new.toNat 30)
  else if off = O.EVT_SW then
    loop 4 (fun k c => if tb new.toNat k then c.pulse (s + 1) (40 + k) else c) c
  else c.setReg off w

/-- Registers of a DMA channel that a write while it is active is ignored for (R382). -/
def dmaReg (off : Nat) : Bool := decide (0x1800 ≤ off) && decide (off < 0x1880) && decide (off % 32 ≤ 0xC)

/-- Count clamps at an offset (R8). -/
def Core.countClamps (c : Core) (off k : Nat) : Core := if k = 0 then c else c.rCount (clampReg off) k

/-- A write of a beam-sensitive register stamped s with its journal entry (R97, R98, R128). A W1C write clears the bits as
they stand at its stamp (R156) and takes an entry of its own; a host write lands at once (R105). -/
def State.beamRegWrite (s : State) (n : Nat) (who : Who) (stamp off : Nat) (r : RegSpec) (v : Word) : State :=
  let i := s.inst n
  let old := match who with | .prog _ => i.regView off | .host => i.core.reg off
  let (w, k) := r.write old v
  let s := s.modCore n fun c => c.countClamps off k
  let entry (d : List (Option Byte)) : JournalEntry := ⟨2 * stamp + 1, true, off, d⟩
  if r.flds.any fun f => f.acc == .rw then
    let e := entry ((leBytes 4 w.toNat).map some)
    match who with
    | .prog _ => s.beamWrite n e
    | .host => s.landEntry n e
  else if r.flds.any fun f => f.acc == .w1c then
    let s := (s.modCore n fun c => c.setReg off w).noteActivity n stamp (decide (w ≠ i.core.reg off))
    match who with
    | .prog _ => s.beamWrite n (entry [])
    | .host => s
  else s

/-- Jobs that have come to wait for a place in the shared blit queue, behind those of greater age (R31, R230). -/
def State.noteJobs (s : State) (n : Nat) : State :=
  let new := ((s.core n).blits.filter fun j => j.phase == .waiting && !s.eng.blitWait.contains (n, j.seq)).map fun j => (n, j.seq)
  if new.isEmpty then s else { s with eng := { s.eng with blitWait := s.eng.blitWait ++ new } }

/-- A write of a window register outside the blocks at 0x5000 and 0x7000 takes effect at a stamp (R4, R8). -/
def State.winApply (s : State) (n : Nat) (who : Who) (stamp off : Nat) (v : Word) : State :=
  let i := s.inst n
  let done (s : State) : State := s.modCore n Core.sense
  if off = O.INST_THREAD_CTRL then done (s.setInst n (i.runWrite stamp v))
  else if off = O.INST_THREAD_STATUS then
    done (s.modCore n fun c => loop 4 (fun t c =>
      if tb v.toNat (8 + t) then c.modThread t fun x => { x with dblTrap := false } else c) c)
  else if 0x400 ≤ off && decide (off < 0x800) then
    match who with
    | .prog _ => if (i.core.thread ((off - 0x400) / 256)).run then s else s.setInst n (i.threadRegWrite off v)
    | .host => if i.rung = .held then s.setInst n (i.threadRegWrite off v) else s
  else if off = O.INST_PRESENCE then s
  else match findReg windowRegs off with
    | none => s
    | some (r, _) =>
      if beamReg off then done (s.beamRegWrite n who stamp off r v)
      else if dmaReg off && (i.core.dma.getD ((off - 0x1800) / 32) {}).active then
        s.modCore n fun c => c.dmaWrite off stamp 0 v
      else
        let (w, k) := r.write (i.core.reg off) v
        let (w, k') := classClamp i.adm.cls off w
        let w := if 0x1100 ≤ off && decide (off < 0x1200) then wset w 11 8 (wbits w 11 8 % 2 ^ i.adm.slots) else w
        let s := done (s.modCore n fun c =>
          let c := c.countClamps off (k + k')
          if dmaReg off then c.dmaWrite off stamp w v else c.winPut who off stamp w v)
        if off = O.BLT_SUBMIT then s.noteJobs n else s

/-- A read of an engine's status at a stamp waits until the beats that it tells of have landed: BLT_STATUS for those of jobs
ended by then (R227), DMA_STATUS and DMA_COUNT for those of their channel (R385). A beat of the read's own stamp is not waited
for: R104 holds it until the reader has passed. -/
def Inst.beatsOpen (i : Inst) (stamp off : Nat) : Bool :=
  if off = O.BLT_STATUS then
    i.core.beats.any fun b => !b.dma && decide (b.stamp < stamp) && !i.core.blits.any fun j => j.seq == b.unit
  else decide (0x1800 ≤ off) && decide (off < 0x1880) && (off % 32 == 0xC || off % 32 == 0x10)
    && i.core.beats.any fun b => b.dma && b.unit == (off - 0x1800) / 32 && decide (b.stamp < stamp)

/-- A program access of a window offset waits in wall time: for the renderer's status of a line not yet produced (R103), for
beats to land, or, for a store, for a free journal entry (R102). The Boolean tells a full journal. -/
def State.winStall (s : State) (n stamp off : Nat) (store : Bool) : Bool × Bool :=
  let i := s.inst n
  let status := [O.VID_STATUS, O.SPR_STATUS, O.CMP_STATUS].contains off
    || (!store && [O.SPR_LINE_STATUS, O.SPR_LINE_FLAGS, O.SPR_COLL_POS, O.SPR_COLL_PAIR].contains off)
  if status && i.statusOpen stamp || !store && i.beatsOpen stamp off then (true, false)
  else
    let entry := store && beamReg off && (match findReg windowRegs off with
      | some (r, _) => r.flds.any fun f => f.acc == .rw || f.acc == .w1c
      | none => false)
    if entry && s.journalFull n then (true, true) else (false, false)

/-- A store of one word by thread t to the window; the blocks at 0x5000 and 0x7000 ignore it (R251, R432). -/
def State.progWrite (s : State) (n t stamp off : Nat) (v : Word) : State :=
  if 0x5000 ≤ off && decide (off < 0x6000) || decide (0x7000 ≤ off) then s
  else s.winApply n (.prog t) stamp off v

end Sys2Proof.Machine
end

