-- ==== Sys2Proof/Machine/Access.lean ====
section
/-! DEFINITION. Memory accesses of a program thread (10_cymal_isa.md, R310 to R313, R321 to R325): the segment checks, loads,
stores and atomics, and the instruction fetch. -/
namespace Sys2Proof.Machine

/-- What an access gives: a result and the state after it; a trap with its cause and offset (R311); a wait in wall time
(R82), on a full journal if `full` is so; or an uncorrectable word (R407, R417). -/
inductive AccOut (α : Type) where
  | ok (x : α) (s : State)
  | trap (cause addr : Nat)
  | stall (full : Bool)
  | ue (x : WordAt)

/-- The rights an access needs, as a mask over R, W and X of SEG_CTRL (R311). -/
abbrev rightR : Nat := 1
abbrev rightW : Nat := 2
abbrev rightX : Nat := 4

/-- Checks 1 to 6 of R311 for `len` bytes at offset `o` of a segment: the cause of the first that fails. `size` is the size
of the segment's space. -/
def segCheck (g : SegVal) (size o len rights : Nat) (fetch atomic : Bool) : Option Nat :=
  if !fetch && o % len ≠ 0 then some 0x30
  else if g.space = 0 then some (if fetch then 0x12 else 0x20)
  else if Nat.land g.ctrl rights ≠ rights then some (if fetch then 0x11 else 0x21)
  else if g.limit < o + len - 1 then some (if fetch then 0x10 else 0x22)
  else if size ≤ g.base * 1024 + o + len - 1 then some (if fetch then 0x12 else 0x23)
  else if atomic && g.space ≠ 2 && g.space ≠ 3 then some 0x24
  else none

/-- The space and the address in it of offset `o` of segment `seg`, or the trap's cause. -/
def State.segAt (s : State) (n seg o len rights : Nat) (fetch atomic : Bool) : Except Nat (Nat × Nat) :=
  let g := (s.core n).seg seg
  match segCheck g (s.spaceSize n g.space) o len rights fetch atomic with
  | some c => .error c
  | none => .ok (g.space, g.base * 1024 + o)

/-- Read bytes of a space as a program does at a stamp: VRAM is forwarded from the journal (R100, R323), an IO access
of another width than 4 returns 0 (R322), and a read that meets a held beat of an earlier stamp waits until it lands (R104). -/
def State.progLoad (s : State) (n t stamp sp a len : Nat) (atomic : Bool) : AccOut (List Byte) :=
  if (s.inst n).beatHides sp a len stamp then .stall false else
  match sp with
  | 3 => match s.eccRange .pool 0 (s.vramAt n a) len with
    | (some u, _) => .ue ⟨.pool, u / 8⟩
    | (none, s) => .ok (s.vramView n a len) s
  | 4 =>
    if len ≠ 4 then .ok (List.replicate len 0) s
    else if (s.winStall n stamp a false).1 then .stall false
    else
      let (v, s) := s.progRead n t stamp a
      .ok (leBytes 4 v.toNat) s
  | _ => match s.rdSpace n sp a len atomic with
    | .ok d s => .ok d s
    | .ue x _ => .ue x
    | .wait _ _ => .stall false

/-- Write bytes of a space as a program does at a stamp (R322, R323); outside VRAM, a held beat of an earlier stamp lands
first (R104). -/
def State.progStore (s : State) (n t stamp sp a : Nat) (data : List Byte) : AccOut Unit :=
  match sp with
  | 3 =>
    if s.journalFull n then .stall true
    else .ok () (s.beamWrite n ⟨2 * stamp + 1, false, a, data.map some⟩)
  | 4 =>
    if data.length ≠ 4 then .ok () s
    else match s.winStall n stamp a true with
      | (true, full) => .stall full
      | (false, _) => .ok () (s.progWrite n t stamp a (BitVec.ofNat 32 (leNat data)))
  | _ =>
    if (s.inst n).beatHides sp a data.length stamp then .stall false else
    match s.wrSpace n sp a data with
    | .ok s => .ok () s
    | .error _ => .stall false

/-- A load of `len` bytes at offset `o` of a segment (R321). -/
def State.load (s : State) (n t stamp seg o len : Nat) : AccOut Nat :=
  match s.segAt n seg o len rightR false false with
  | .error c => .trap c o
  | .ok (sp, a) => match s.progLoad n t stamp sp a len false with
    | .ok d s => .ok (leNat d) s
    | .trap c x => .trap c x
    | .stall f => .stall f
    | .ue x => .ue x

/-- A store of the low `len` bytes of `v` (R321). -/
def State.store (s : State) (n t stamp seg o len v : Nat) : AccOut Unit :=
  match s.segAt n seg o len rightW false false with
  | .error c => .trap c o
  | .ok (sp, a) => s.progStore n t stamp sp a (leBytes len v)

/-- An atomic on the word at offset `o`: `f` gives the new word from the old one, which is returned (R324). -/
def State.atomic (s : State) (n t stamp seg o : Nat) (f : Nat → Nat) : AccOut Nat :=
  match s.segAt n seg o 4 (rightR + rightW) false true with
  | .error c => .trap c o
  | .ok (sp, a) =>
    if sp = 3 && s.journalFull n then .stall true else
    match s.progLoad n t stamp sp a 4 true with
    | .ok d s => match s.progStore n t stamp sp a (leBytes 4 (f (leNat d))) with
      | .ok _ s => .ok (leNat d) s
      | .trap c x => .trap c x
      | .stall f => .stall f
      | .ue x => .ue x
    | .trap c x => .trap c x
    | .stall f => .stall f
    | .ue x => .ue x

/-- Fetch the word at thread t's PC (R304, R309, R325, R327). -/
def State.fetch (s : State) (n t stamp : Nat) : AccOut Nat :=
  let pc := ((s.core n).thread t).pc.toNat
  let o := pc / 4 * 4
  if tb pc 0 then .trap 0x13 pc
  else match s.segAt n 0 o 4 rightX true false with
    | .error c => .trap c o
    | .ok (sp, a) => match s.progLoad n t stamp sp a 4 false with
      | .ok d s => if tb pc 1 && !tb (leNat d) 31 then .trap 0x13 pc else .ok (leNat d) s
      | .trap c x => .trap c x
      | .stall f => .stall f
      | .ue x => .ue x

end Sys2Proof.Machine
end

