-- ==== Sys2Proof/Machine/Alu.lean ====
section
/-! DEFINITION. The arithmetic of the Cymal set with its edge cases (R315, R317 to R320), as functions of register values.
The set has no flag register: a comparison gives 0 or 1 (R301). -/
namespace Sys2Proof.Machine

/-- 0 or 1 in a register. -/
def flag (b : Bool) : Word := if b then 1 else 0

/-- Shift left by a count of 0 to 255; 32 and more give 0 (R319). -/
def aluShl (a : Word) (c : Nat) : Word := a <<< c
/-- Logical right shift. -/
def aluShr (a : Word) (c : Nat) : Word := a >>> c
/-- Arithmetic right shift; 32 and more give the sign (R319). -/
def aluSar (a : Word) (c : Nat) : Word := a.sshiftRight c
/-- The count of a shift by register: amount[7:0] (R319). -/
def shiftCount (b : Word) : Nat := b.toNat % 256
/-- Rotate left by amount[4:0] (R319). -/
def aluRol (a b : Word) : Word := a.rotateLeft (b.toNat % 32)
/-- Rotate right by amount[4:0]. -/
def aluRor (a b : Word) : Word := a.rotateRight (b.toNat % 32)

/-- High half of the signed product (R315). -/
def aluMulh (a b : Word) : Word := BitVec.ofInt 32 ((a.toInt * b.toInt) >>> 32)
/-- High half of the unsigned product. -/
def aluMulhu (a b : Word) : Word := BitVec.ofNat 32 (a.toNat * b.toNat / 2 ^ 32)
/-- Signed quotient and remainder; division by 0 gives 0xFFFF_FFFF and the dividend (R319). -/
def aluDivs (a b : Word) : Word × Word := if b = 0 then (0xFFFFFFFF, a) else (a.sdiv b, a.srem b)
/-- Unsigned quotient and remainder (R319). -/
def aluDivu (a b : Word) : Word × Word := if b = 0 then (0xFFFFFFFF, a) else (a / b, a % b)
/-- A signed value saturated to 32 bits (R319). -/
def aluSat (v : Int) : Word := BitVec.ofInt 32 (clampI (-2147483648) 2147483647 v)
/-- Leading zero bits (R319). -/
def aluClz (a : Word) : Word := BitVec.ofNat 32 ((List.range 32).foldl (fun k i => if tb a.toNat i then 31 - i else k) 32)
/-- Trailing zero bits. -/
def aluCtz (a : Word) : Word := BitVec.ofNat 32 ((List.range 32).foldl (fun k i => if tb a.toNat (31 - i) then 31 - i else k) 32)
/-- One bits. -/
def aluPopc (a : Word) : Word := BitVec.ofNat 32 (popCount 32 a.toNat)
/-- Parity. -/
def aluPar (a : Word) : Word := BitVec.ofNat 32 (popCount 32 a.toNat % 2)
/-- Bit i from bit 31 − i. -/
def aluBrev (a : Word) : Word := BitVec.ofNat 32 (reverseBits 32 a.toNat)
/-- Bits reversed within each byte. -/
def aluBrev8 (a : Word) : Word :=
  BitVec.ofNat 32 (leNat ((leBytes 4 a.toNat).map fun b => BitVec.ofNat 8 (reverseBits 8 b.toNat)))
/-- Bytes reversed. -/
def aluBswap (a : Word) : Word := BitVec.ofNat 32 (leNat (leBytes 4 a.toNat).reverse)
/-- Sign extension of the low k bits. -/
def aluSext (k : Nat) (a : Word) : Word := BitVec.ofInt 32 (sext k a.toNat)

/-- One CRC-32 step over a byte (R320). -/
def aluCrc32b (a b : Word) : Word := BitVec.ofNat 32 (crcStep 0xEDB88320 a.toNat (b.toNat % 256))
/-- Four CRC-32 steps over the bytes of gb, byte 0 first (R320). -/
def aluCrc32w (a b : Word) : Word :=
  BitVec.ofNat 32 ((leBytes 4 b.toNat).foldl (fun c x => crcStep 0xEDB88320 c x.toNat) a.toNat)
/-- One CRC-16 step over a byte (R320). -/
def aluCrc16b (a b : Word) : Word :=
  BitVec.ofNat 32 ((List.range 8).foldl (fun c _ =>
    if tb c 15 then nxor (c * 2 % 65536) 0x1021 else c * 2 % 65536) (nxor (a.toNat % 65536) (b.toNat % 256 * 256)))

/-- The result and cost of a short instruction that neither loads nor stores (R317): `d` is gd, `s` is gs, `imm` the field
[4:0]. None for a NOP, a load or store, or a reserved SOP. -/
def shortAlu (sop : Nat) (d s : Word) (imm : Nat) : Option (Word × Nat) :=
  match sop with
  | 0x01 => some (s, 1)
  | 0x02 => some (d + s, 1)
  | 0x03 => some (d - s, 1)
  | 0x04 => some (d &&& s, 1)
  | 0x05 => some (d ||| s, 1)
  | 0x06 => some (d ^^^ s, 1)
  | 0x07 => some (aluShl d (shiftCount s), 1)
  | 0x08 => some (aluShr d (shiftCount s), 1)
  | 0x09 => some (aluSar d (shiftCount s), 1)
  | 0x0A => some (flag (d == s), 1)
  | 0x0B => some (flag (d != s), 1)
  | 0x0C => some (flag (d.slt s), 1)
  | 0x0D => some (flag (d.ult s), 1)
  | 0x0E => some (0 - s, 1)
  | 0x0F => some (~~~ s, 1)
  | 0x10 => some (d * s, 2)
  | 0x11 => some (aluPopc s, 1)
  | 0x12 => some (aluPar s, 1)
  | 0x14 => some (BitVec.ofInt 32 (sext 5 imm), 1)
  | 0x15 => some (d + BitVec.ofInt 32 (sext 5 imm), 1)
  | 0x16 => some (aluShl d imm, 1)
  | 0x17 => some (aluShr d imm, 1)
  | 0x18 => some (aluSar d imm, 1)
  | 0x19 => some (flag (tb d.toNat imm), 1)
  | _ => none

end Sys2Proof.Machine
end

