-- ==== Sys2Proof/Machine/Operands.lean ====
section
/-! DEFINITION. The operand forms of the Cymal instruction words (R304 to R309, R316, R317, R329): fields of each format, the
words that belong to an instruction, immediates and displacements, and the reserved bits. -/
namespace Sys2Proof.Machine

/-- Format L-R of a word (R305). -/
def fmtR (w : Nat) : FmtR := ⟨bits w 24 20, bits w 19 15, bits w 14 10, bits w 9 6⟩
/-- Format L-S. -/
def fmtSel (w : Nat) : FmtSel := ⟨bits w 24 20, bits w 19 15, bits w 14 10, bits w 9 5, bits w 4 0⟩
/-- Format L-Y. -/
def fmtY (w : Nat) : FmtY := ⟨bits w 24 20, bits w 19 15, bits w 14 10, bits w 9 6⟩
/-- Format L-I. -/
def fmtI (w : Nat) : FmtI := ⟨bits w 24 20, bits w 19 15, bits w 14 0⟩
/-- Format L-M. -/
def fmtM (w : Nat) : FmtM := ⟨bits w 24 20, bits w 19 15, bits w 14 12, bits w 11 0⟩
/-- Format L-B. -/
def fmtB (w : Nat) : FmtB := ⟨bits w 24 20, bits w 19 0⟩
/-- Format L-U. -/
def fmtU (w : Nat) : FmtU := ⟨bits w 24 20, bits w 19 0⟩
/-- Format L-J. -/
def fmtJ (w : Nat) : FmtJ := ⟨bits w 24 0⟩
/-- A pair (R306). -/
def fmtP (w : Nat) : FmtP := ⟨bits w 30 16, bit w 15, bits w 14 0⟩

/-- The word is long and has opcode `op` (R304, R305). -/
def isOp (op w : Nat) : Bool := bits w 31 25 == op
/-- The word is the ALU function `fn` with these fields (R315). -/
def isAlu (fn : Nat) (f : FmtR) (w : Nat) : Bool := isOp 0x00 w && bits w 5 0 == fn && fmtR w == f
/-- The word is the SYS function `fn` with these fields (R316). -/
def isSys (fn : Nat) (f : FmtY) (w : Nat) : Bool := isOp 0x02 w && bits w 5 0 == fn && fmtY w == f
/-- The word is SEL with these fields. -/
def isSel (f : FmtSel) (w : Nat) : Bool := isOp 0x01 w && fmtSel w == f
/-- The word has an L-I opcode with these fields; JALR's fields are read in the same places. -/
def isImm (op : Nat) (f : FmtI) (w : Nat) : Bool := isOp op w && fmtI w == f
/-- The word has an L-M opcode with these fields. -/
def isMem (op : Nat) (f : FmtM) (w : Nat) : Bool := isOp op w && fmtM w == f
/-- The word has an L-B opcode with these fields. -/
def isBr (op : Nat) (f : FmtB) (w : Nat) : Bool := isOp op w && fmtB w == f
/-- The word is LUI with these fields. -/
def isLui (f : FmtU) (w : Nat) : Bool := isOp 0x03 w && fmtU w == f
/-- The word has an L-J opcode with this displacement. -/
def isJmp (op : Nat) (f : FmtJ) (w : Nat) : Bool := isOp op w && fmtJ w == f
/-- The word is the pair of these halves. -/
def isPair (f : FmtP) (w : Nat) : Bool := tb w 31 && fmtP w == f

/-- The ALU functions of R315. -/
def aluFn (fn : Nat) : Bool := decide (fn ≤ 0x1D) || (decide (0x20 ≤ fn) && decide (fn ≤ 0x2C)) || (decide (0x30 ≤ fn) && decide (fn ≤ 0x32))
/-- The long opcodes of R314. -/
def longOp (op : Nat) : Bool := decide (op ≤ 0x1B) || (decide (0x20 ≤ op) && decide (op ≤ 0x22)) || (decide (0x24 ≤ op) && decide (op ≤ 0x26))
/-- The short opcodes of R317. -/
def shortOp (sop : Nat) : Bool := decide (sop ≤ 0x1D) && decide (sop ≠ 0x13)
/-- A word with a reserved OP, FN or SOP (R314 to R317, R328). -/
def isReserved (w : Nat) : Bool :=
  if tb w 31 then !(shortOp (bits w 30 26) && shortOp (bits w 14 10))
  else if bits w 30 25 = 0 then !aluFn (bits w 5 0)
  else if bits w 30 25 = 2 then decide (6 < bits w 5 0)
  else !longOp (bits w 30 25)

/-- imm15 sign-extended (R314). -/
def immS (f : FmtI) : Word := BitVec.ofInt 32 (sext 15 f.imm)
/-- imm15 zero-extended. -/
def immZ (f : FmtI) : Word := BitVec.ofNat 32 f.imm
/-- The offset of a load or store: ga plus imm12 sign-extended, modulo 2^32 (R311). -/
def memOffset (f : FmtM) (ga : Word) : Nat := (ga + BitVec.ofInt 32 (sext 12 f.imm)).toNat
/-- The target of a displacement of `k` bits, in words from the word's own address (R305). -/
def dispTarget (addr k disp : Nat) : Word := BitVec.ofInt 32 (addr + 4 * sext k disp)

end Sys2Proof.Machine
end

