-- ==== Sys2Proof/Machine/Short.lean ====
section
/-! DEFINITION. A thread's registers, its short instructions (10_cymal_isa.md, R306, R317, R330), and which window offsets its
next word reads (R369). -/
namespace Sys2Proof.Machine

/-- How a word ends: it completes with its cost and the next PC; it traps, with the vc charged before entry and the effects
that are kept; it waits in wall time; or it meets an uncorrectable word. -/
inductive WordOut where
  | done (cost : Nat) (pc : Word) (s : State)
  | trap (cause seg addr charge : Nat) (half : Bool) (s : State)
  | stall (full : Bool) (key : Nat)
  | ue (x : WordAt)

/-- General register k of thread t. -/
def State.gr (s : State) (n t k : Nat) : Word := ((s.core n).thread t).gr k
/-- Write general register k of thread t. -/
def State.setG (s : State) (n t k : Nat) (v : Word) : State :=
  s.modCore n fun c => c.modThread t fun x => x.setG k v
/-- The address of the word that thread t executes (R314). -/
def State.wordAddr (s : State) (n t : Nat) : Word := ((s.core n).thread t).pc &&& 0xFFFFFFFC
/-- The address after it. -/
def State.nextPc (s : State) (n t : Nat) : Word := s.wordAddr n t + 4

/-- One short instruction: the state and cost, or how it ends otherwise (R306, R317, R330). `half` marks B, and `charge` is
what has been charged for the word before it. -/
def State.short (s : State) (n t stamp : Nat) (sh : Nat) (half : Bool) (charge : Nat) : Except WordOut (State × Nat) :=
  let sop := bits sh 14 10
  let gd := bits sh 9 5
  let gs := bits sh 4 0
  let trap (c seg a : Nat) : WordOut := .trap c seg a (charge + 1) half s
  let key := t + 4 * b2n half
  if !shortOp sop then .error (trap 0x01 0 0)
  else if sop = 0 then (if bits sh 9 0 ≠ 0 then .error (trap 0x02 0 0) else .ok (s, 1))
  else if sop = 0x1A || sop = 0x1C then
    let seg := if sop = 0x1A then 1 else 3
    match s.load n t stamp seg (s.gr n t gs).toNat 4 with
    | .ok v s => .ok (s.setG n t gd (BitVec.ofNat 32 v), 2)
    | .trap c a => .error (trap c seg a)
    | .stall full => .error (.stall full key)
    | .ue x => .error (.ue x)
  else if sop = 0x1B || sop = 0x1D then
    let seg := if sop = 0x1B then 1 else 3
    match s.store n t stamp seg (s.gr n t gs).toNat 4 (s.gr n t gd).toNat with
    | .ok _ s => .ok (s, 1)
    | .trap c a => .error (trap c seg a)
    | .stall full => .error (.stall full key)
    | .ue x => .error (.ue x)
  else match shortAlu sop (s.gr n t gd) (s.gr n t gs) gs with
    | some (v, cost) => .ok (s.setG n t gd v, cost)
    | none => .ok (s, 1)

/-- A long word loads from the window offset `off`, or stores `v` there, through a segment of space IO (R310, R322). -/
def State.longAccess (s : State) (n t off : Nat) (w : Nat) (v : Option Word) : Bool :=
  let f := fmtM w
  let op := if v.isSome then 0x1A else 0x14
  match s.segAt n f.seg (memOffset f (s.gr n t f.ga)) 4 (if v.isSome then rightW else rightR) false false with
  | .ok (sp, a) => isOp op w && sp = 4 && a = off && (match v with | some x => x == s.gr n t f.gd | none => true)
  | .error _ => false

/-- A short instruction loads from the window offset `off` (R317). -/
def State.shortLoads (s : State) (n t sh off : Nat) : Bool :=
  let seg (k : Nat) : Bool := match s.segAt n k (s.gr n t (bits sh 4 0)).toNat 4 rightR false false with
    | .ok (sp, a) => sp = 4 && a = off
    | .error _ => false
  match bits sh 14 10 with
  | 0x1A => seg 1
  | 0x1C => seg 3
  | _ => false

/-- Thread t executes a word at a stamp that reads the window offset `off`: it runs, stands at that stamp, enters no interrupt
there, and its word loads from the offset (R307, R353, R369). -/
def State.wordReads (s : State) (n t stamp off : Nat) : Bool :=
  let x := (s.core n).thread t
  x.run && !x.waiting && x.pos == stamp && (s.core n).eligible t == 0 && (match s.fetch n t stamp with
    | .ok w s =>
      if tb w 31 then
        let b (s : State) : Bool := s.shortLoads n t (bits w 14 0) off
        !tb w 15 && (if tb x.pc.toNat 1 then b s
          else s.shortLoads n t (bits w 30 16) off || (match s.short n t stamp (bits w 30 16) false 0 with
            | .ok (s, _) => b s
            | .error _ => false))
      else s.longAccess n t off w none
    | _ => false)

end Sys2Proof.Machine
end

