-- ==== Sys2Proof/Machine/Virtual.lean ====
section
/-! DEFINITION. Running an instance's events in virtual time: the effects that need no command of their own, and the frame
of every event that has one. -/
namespace Sys2Proof.Machine

/-- An IRET of thread t from an interrupt of a depth completes (R355): the stack is popped, which restores IN_TRAP and the level,
and the services claimed at that depth end. A thread that was started anew has no such depth (R337). -/
def Core.endReturn (c : Core) (t depth : Nat) : Core :=
  let c := { c with claims := c.claims.filter fun x => !(x.thread == t && x.depth == depth) }
  c.modThread t fun x => match x.stack with
    | e :: r => if x.stack.length = depth then { x with stack := r, inTrap := e.inTrap, level := e.level } else x
    | [] => x

/-- An effect at stamp t on instance state; `State.effect` gives those that need more of the device. -/
def Core.micro1 (c : Core) (t : Nat) (m : Micro) : Core :=
  match m with
  | .srcCfg k v => c.setSrcCfg k v
  | .captLate i v => c.captLand i v
  | .endService th depth => c.endReturn th depth
  | .status _ _ v cmp _ => c.lineStatus v cmp
  | .blitWm m => c.rOr O.BLT_STATUS m
  | .blitEnd r => c.blitFinish t r
  | .act target => c.evtAct target t
  | .beam k on => { c with beam := if on then c.beam ||| 2 ^ k else c.beam &&& (3 - 2 ^ k) }
  | .dmaCount k len => c.rSet (O.DMA_COUNT + 32 * k) 24 0 (c.rbits (O.DMA_COUNT + 32 * k) 24 0 - len)
  | .dmaEnd k r side a => c.dmaEnd k t r side a
  | .capture _ | .dmaPre _ | .blitPre => c

/-- Capture writes land in VRAM; those outside the quota were discarded as the line was rendered (R200). -/
def State.landCaptures (s : State) (n stamp : Nat) (caps : List CapWrite) : State :=
  caps.foldl (fun s w => s.landVram n stamp w.addr w.data) s

/-- The capture writes of an effect (R200). -/
def microCaps (m : Micro) : List CapWrite := match m with | .status _ _ _ _ caps => caps | _ => []

/-- A program read of TIM_CAPT of timer i at stamp t puts a capture of that stamp off to t + 1 (R369). DEDUCED: the read takes
place although the capture's own interrupt would keep the thread from it. -/
def State.captAwaited (s : State) (n i t : Nat) : Bool :=
  (List.range (s.inst n).adm.slots).any fun k => s.wordReads n k t (O.TIM_CAPT + 32 * i)

/-- Effect m of stamp t on the device, where its instance's own state does not decide it (R369, R383, R220, R230). -/
def State.effect (s : State) (n t : Nat) (m : Micro) : State :=
  match m with
  | .dmaPre k => s.dmaPre n k t
  | .blitPre => s.blitPre n t
  | .capture i =>
    if s.captAwaited n i t then
      s.modCore n fun c => c.addMicro (keyOf (t + 1) 2 0) (.captLate i (c.reg (O.TIM_COUNT + 32 * i)))
    else s.modCore n fun c => c.timCapture i t
  | .act 16 => (s.modCore n fun c => c.evtAct 16 t).noteJobs n
  | m => s.modCore n fun c => c.micro1 t m

/-- The state after effect m of key k, with `r` the effects after it. -/
def State.afterEffect (s : State) (n k : Nat) (m : Micro) (r : List (Nat × Micro)) : State :=
  (((s.landCaptures n (keyStamp k) (microCaps m)).modCore n fun c => { c with micro := r }).effect n (keyStamp k) m).modCore n
    fun c => c.passed k

/-- The held beat of stamp t whose outcome an effect tells of (R225, R229, R385, R389). -/
def Core.toldBeat (c : Core) (t : Nat) (m : Micro) : Option Beat :=
  match m with
  | .dmaCount k _ | .dmaEnd k _ _ _ => c.beats.find? fun b => b.dma && b.unit == k && b.stamp == t
  | .blitWm _ | .blitEnd _ => c.beats.find? fun b => !b.dma && b.stamp == t
  | _ => none

/-- The missing leaf that an effect waits for, since its beat cannot be known to land without it (R389, R425). -/
def State.effectLeaf (s : State) (n k : Nat) (m : Micro) : Option (Nat × Nat) :=
  ((s.core n).toldBeat (keyStamp k) m).bind fun b => s.beatLeaf n b

/-- Effect m of key k runs, with `r` the effects after it. One that captures waits until the writes before it have landed
(R200), and one that tells of a beat for its leaf. -/
def State.runEffect (s : State) (n k : Nat) (m : Micro) (r : List (Nat × Micro)) : Option State :=
  if !(microCaps m).isEmpty && (!(s.inst n).journal.isEmpty
      || (s.core n).beats.any fun b => b.space == 3 && decide (b.stamp < keyStamp k)) then none
  else if (s.effectLeaf n k m).isSome then none
  else some (s.afterEffect n k m r)

/-- The next effect of the queue runs. -/
def State.runMicro (s : State) (n : Nat) : Option State :=
  match (s.core n).micro with
  | [] => none
  | x :: r => s.runEffect n x.1 x.2 r

/-- Run the effects whose turn it is. -/
def State.settleFor (s : State) (n : Nat) : Nat → State
  | 0 => s
  | f + 1 =>
    match (s.inst n).turn with
    | some (_, .micro) => match s.runMicro n with
      | some s => s.settleFor n f
      | none => s
    | _ => s

/-- Run every effect whose turn it is. -/
def State.settle (s : State) (n : Nat) : State := s.settleFor n (2 * (s.core n).micro.length + 16)

/-- An event of instance n takes place when it is its turn: `f` is its effect, given its stamp. -/
def State.event (s : State) (n : Nat) (d : Due) (f : Nat → State → State) : State :=
  match (s.inst n).turnOf d with
  | none => s
  | some k => ((f (keyStamp k) s).modCore n fun c => c.passed k).settle n

/-- An event that may have to wait in wall time: `f` gives none while it waits. -/
def State.eventOr (s : State) (n : Nat) (d : Due) (f : Nat → State → Option State) : State :=
  match (s.inst n).turnOf d with
  | none => s
  | some k => match f (keyStamp k) s with
    | none => s
    | some s => (s.modCore n fun c => c.passed k).settle n

end Sys2Proof.Machine
end

