-- ==== Sys2Proof/Machine/Issue.lean ====
section
/-! DEFINITION. Taking a trap (R328 to R334) and executing one instruction word of a thread (R80, R307, R308, R331, R353):
the shared operations of every Cymal instruction. -/
namespace Sys2Proof.Machine

/-- A fetch cause of R328. -/
def fetchCause (cause : Nat) : Bool := decide (0x10 ≤ cause) && decide (cause ≤ 0x13)

/-- Trap of thread t at a word stamped `stamp` (R328, R331 to R333): entry, or the stop of a double trap. -/
def Core.trap (c : Core) (t stamp cause seg addr charge : Nat) (half : Bool) (word : Nat) : Core :=
  let x := c.thread t
  let wa := x.pc &&& 0xFFFFFFFC
  if x.inTrap then c.setThread t { x with run := false, dblTrap := true, pos := stamp + charge }
  else
    let resume := if cause = 0x40 then wa + 4 else if fetchCause cause then x.pc else if half then wa ||| 2 else wa
    c.setThread t { x with
      epc := resume &&& 0xFFFFFFFE
      trapInfo := if fetchCause cause then 0 else BitVec.ofNat 32 word
      trapCause := BitVec.ofNat 32 (seg * 512 + b2n half * 256 + cause)
      trapAddr := BitVec.ofNat 32 addr
      inTrap := true
      pc := BitVec.ofNat 32 (c.tvec + 4 * (cause / 16 + 1))
      pos := stamp + charge + 4 }

/-- A word completes: the thread's PC and position advance (R80), unless the word itself started its thread anew (R337). -/
def Core.advance (c : Core) (t stamp cost : Nat) (pc : Word) : Core :=
  c.modThread t fun x => if x.pos = stamp then { x with pc := pc, pos := stamp + cost } else x

/-- Count a store that meets a full journal, once (R102, R114). `key` is the thread, plus 4 for the B half of a pair. -/
def State.fenceStall (s : State) (n key : Nat) : State :=
  if (s.inst n).fence.contains key then s
  else (s.pfCount (O.VID_FENCE_STALLS + 32 * n) 31 0 1).modInst n fun i => { i with fence := key :: i.fence }

/-- An uncorrectable word stops a program access: it is counted, and its consequence follows (R407, R417, R529). The word of the
program does not complete. -/
def State.progUe (s : State) (n : Nat) (x : WordAt) : State := (s.eccUe x 0).ueMet n 1 x

/-- A word of thread t has run under key k: its mark of a full journal goes, and the effects whose turn it is follow. -/
def State.wordPass (s : State) (n t k : Nat) : State :=
  ((s.modInst n fun i => { i with fence := i.fence.filter fun x => x % 4 != t }).modCore n fun c => c.passed k).settle n

/-- What the end of word w of thread t, issued under key k, leaves of state s. -/
def State.wordEnd (s : State) (n t k w : Nat) : WordOut → State
  | .done cost pc s2 => (s2.modCore n fun c => c.advance t (keyStamp k) cost pc).wordPass n t k
  | .trap cause seg addr charge half s2 =>
    (s2.modCore n fun c => c.trap t (keyStamp k) cause seg addr charge half w).wordPass n t k
  | .stall full key => if full then s.fenceStall n key else s
  | .ue x => s.progUe n x

/-- Thread t executes the word at its PC, if it is its turn, no interrupt is to be entered, and the word is one that `m`
allows; a fetch fault traps whatever the word (R325, R327, R353). `body` is given the stamp, the word and whether only
its B half runs. -/
def State.issue (s : State) (n t : Nat) (m : Nat → Bool) (body : Nat → Nat → Bool → State → WordOut) : State :=
  match (s.inst n).turnOf (.thread t) with
  | none => s
  | some k =>
    if ((s.core n).thread t).waiting || decide ((s.core n).eligible t ≠ 0) then s else
    match s.fetch n t (keyStamp k) with
    | .trap cause addr => s.wordEnd n t k 0 (.trap cause 0 addr 1 false s)
    | .stall _ => s
    | .ue x => s.progUe n x
    | .ok w s1 => if m w then s.wordEnd n t k w (body (keyStamp k) w (tb ((s.core n).thread t).pc.toNat 1) s1) else s

/-- A reserved bit at 1 traps with nothing done (R329, R331). -/
def WordOut.rsvBits (s : State) : WordOut := .trap 0x02 0 0 1 false s

/-- A long word that writes one register and goes on. -/
def WordOut.setReg (s : State) (n t gd : Nat) (v : Word) (cost : Nat) : WordOut := .done cost (s.nextPc n t) (s.setG n t gd v)

/-- An ALU function of two operands (R315). -/
def State.alu2 (s : State) (n t fn : Nat) (f : FmtR) (cost : Nat) (op : Word → Word → Word) : State :=
  s.issue n t (isAlu fn f) fun _ _ _ s =>
    if f.rsv ≠ 0 then .rsvBits s else .setReg s n t f.gd (op (s.gr n t f.ga) (s.gr n t f.gb)) cost

/-- An ALU function of one operand, whose gb is reserved (R315, R329). -/
def State.alu1 (s : State) (n t fn : Nat) (f : FmtR) (op : Word → Word) : State :=
  s.issue n t (isAlu fn f) fun _ _ _ s =>
    if f.rsv ≠ 0 || f.gb ≠ 0 then .rsvBits s else .setReg s n t f.gd (op (s.gr n t f.ga)) 1

/-- A division: the quotient to gd, the remainder to g(d + 1), with gd even (R315, R319, R329). -/
def State.aluDiv (s : State) (n t fn : Nat) (f : FmtR) (op : Word → Word → Word × Word) : State :=
  s.issue n t (isAlu fn f) fun _ _ _ s =>
    if f.rsv ≠ 0 || f.gd % 2 = 1 then .rsvBits s else
    let (q, r) := op (s.gr n t f.ga) (s.gr n t f.gb)
    .done 12 (s.nextPc n t) ((s.setG n t f.gd q).setG n t (f.gd + 1) r)

/-- An immediate operation (R314). -/
def State.aluImm (s : State) (n t op : Nat) (f : FmtI) (cost : Nat) (g : Word → Word) : State :=
  s.issue n t (isImm op f) fun _ _ _ s => .setReg s n t f.gd (g (s.gr n t f.ga)) cost

/-- A shift by immediate: imm15[14:8] is reserved (R314, R329). -/
def State.shiftImm (s : State) (n t op : Nat) (f : FmtI) (g : Word → Nat → Word) : State :=
  s.issue n t (isImm op f) fun _ _ _ s =>
    if bits f.imm 14 8 ≠ 0 then .rsvBits s else .setReg s n t f.gd (g (s.gr n t f.ga) (bits f.imm 7 0)) 1

/-- A load of `len` bytes whose result `g` forms (R321). -/
def State.loadWord (s : State) (n t op len : Nat) (f : FmtM) (g : Nat → Word) : State :=
  s.issue n t (isMem op f) fun stamp _ _ s =>
    match s.load n t stamp f.seg (memOffset f (s.gr n t f.ga)) len with
    | .ok v s => .setReg s n t f.gd (g v) 2
    | .trap c a => .trap c f.seg a 1 false s
    | .stall full => .stall full t
    | .ue x => .ue x

/-- A store of the low `len` bytes of gd (R321). -/
def State.storeWord (s : State) (n t op len : Nat) (f : FmtM) : State :=
  s.issue n t (isMem op f) fun stamp _ _ s =>
    match s.store n t stamp f.seg (memOffset f (s.gr n t f.ga)) len (s.gr n t f.gd).toNat with
    | .ok _ s => .done 1 (s.nextPc n t) s
    | .trap c a => .trap c f.seg a 1 false s
    | .stall full => .stall full t
    | .ue x => .ue x

/-- An atomic word: `g` gives the new word from the old one and gd; gd takes the old one (R324). -/
def State.atomicWord (s : State) (n t op : Nat) (f : FmtM) (g : Word → Word → Word) : State :=
  s.issue n t (isMem op f) fun stamp _ _ s =>
    match s.atomic n t stamp f.seg (memOffset f (s.gr n t f.ga)) fun v => (g (BitVec.ofNat 32 v) (s.gr n t f.gd)).toNat with
    | .ok v s => .setReg s n t f.gd (BitVec.ofNat 32 v) 3
    | .trap c a => .trap c f.seg a 1 false s
    | .stall full => .stall full t
    | .ue x => .ue x

/-- A conditional branch: taken or not by the value `v` of gc, which DBNZ has decremented (R326). -/
def State.branch (s : State) (n t : Nat) (f : FmtB) (taken : Bool) : WordOut :=
  if taken then .done 2 (dispTarget (s.wordAddr n t).toNat 20 f.disp) s else .done 1 (s.nextPc n t) s

/-- A SYS function whose unused fields are reserved: `used` tells whether gd, ga and the index field may be other than 0
(R316, R329). -/
def State.sysWord (s : State) (n t fn : Nat) (f : FmtY) (gd ga sr : Bool) (body : Nat → State → WordOut) : State :=
  s.issue n t (isSys fn f) fun stamp _ _ s =>
    if f.rsv ≠ 0 || (!gd && f.gd ≠ 0) || (!ga && f.ga ≠ 0) || (!sr && f.sr ≠ 0) then .rsvBits s else body stamp s

/-- A pair: A and then B, or B alone after a resume at the half bit (R307 to R309, R329, R330). -/
def State.pairBody (n t stamp w : Nat) (half : Bool) (s : State) : WordOut :=
  let next := s.nextPc n t
  if tb w 15 then
    .trap (if shortOp (bits w 30 26) && shortOp (bits w 14 10) then 0x02 else 0x01) 0 0 1 false s
  else
    match (if half then .ok (s, 0) else s.short n t stamp (bits w 30 16) false 0) with
    | .error o => o
    | .ok (s, a) => match s.short n t stamp (bits w 14 0) true a with
      | .error o => o
      | .ok (s, b) => .done (a + b) next s

end Sys2Proof.Machine
end

