-- ==== Sys2Proof/Machine/Gpio.lean ====
section
/-! DEFINITION. The GPIO pins (18_pins_boot.md, R546 to R553): levels, functions and owners, and the registers of the
block as host and management write them. -/
namespace Sys2Proof.Machine

/-- OWNER code of an agent (R549). -/
def agentCode : Agent → Nat
  | .host => 0
  | .mgt => 1
  | .safe => 2

/-- GPIO_CFG of pin p. -/
def State.pinCfg (s : State) (p : Nat) : Word := s.pf (O.GPIO_CFG + 4 * p)
/-- The stored output value of pin p (R553). -/
def State.pinOut (s : State) (p : Nat) : Bool := tb (s.pf (O.GPIO_OUT + 4 * (p / 32))).toNat (p % 32)

/-- The level that FUNC 0 drives under a setting and an output value, none while the pin is released or feeds another
function (R553). -/
def cfgDrive (cfg : Word) (out : Bool) : Option Bool :=
  if wbits cfg 23 20 = 0 && tb cfg.toNat 0 && (!tb cfg.toNat 1 || !out) then some out else none

/-- What an output function drives (R546): UART_TX and FAN_PWM what the firmware sends, which is a free value at every wall time, I2C
the same with an open drain, and FRAME_MARK a high level for 1 us from each frame start of its output. -/
def State.funcDrive (s : State) (f : Nat) : Option Bool :=
  let sent := Config.pinSent f s.wall
  if f = 1 || f = 5 || f = 6 then some sent
  else if f = 3 || f = 4 then (if sent then none else some false)
  else if f = 9 || f = 10 then some (decide (s.wall < (s.mons.getD (f - 9) {}).mark))
  else none

/-- What pin p drives: during a switch what it drove before (R548). EXTEST and CLAMP drive the balls from the boundary-scan
chain, and HIGHZ releases them (R554); bit p of the chain stands for pin p (DESIGN CHOICE: the manual gives no order). -/
def State.pinDrive (s : State) (p : Nat) : Option Bool :=
  match s.pins.jtag with
  | .extest | .clamp => some (tb s.pins.held p)
  | .highz => none
  | _ => match s.pins.leaving.find? fun e => e.1 == p with
    | some e => e.2.drove
    | none => (s.funcDrive (wbits (s.pinCfg p) 23 20)).or (cfgDrive (s.pinCfg p) (s.pinOut p))

/-- The level at pin p: what it drives, else what the world outside gives it (R547). -/
def State.pinLevel (s : State) (p : Nat) : Bool := (s.pinDrive p).getD (tb s.pins.ext p)

/-- The function that pin p feeds: during a switch the one it leaves (R548). -/
def State.pinFunc (s : State) (p : Nat) : Nat :=
  match s.pins.leaving.find? fun e => e.1 == p with
  | some e => e.2.fed
  | none => wbits (s.pinCfg p) 23 20

/-- The pins that feed an input function (R547). -/
def State.feeders (s : State) (f : Nat) : List Nat := (List.range 48).filter fun p => s.pinFunc p == f

/-- The value that an input function takes: that of the one pin that feeds it and is not switching to or from it, else its
default (R546 to R548). -/
def State.pinInput (s : State) (f : Nat) : Bool :=
  let dflt := f == 2 || f == 3 || f == 4
  let switching := s.pins.leaving.any fun e => e.2.fed == f || wbits (s.pinCfg e.1) 23 20 == f
  match s.feeders f with
  | [p] => if switching then dflt else s.pinLevel p
  | _ => dflt

/-- CONFLICT of GPIO_STATUS: UART_RX, I2C_SCL, I2C_SDA, FAN_TACH[0], FAN_TACH[1] from bit 8 up (R553). -/
def State.pinConflict (s : State) : Nat :=
  [2, 3, 4, 7, 8].zipIdx.foldl (fun a (f, k) => if 2 ≤ (s.feeders f).length then a + 2 ^ k else a) 0

/-- FUNC codes allowed to an owner (R546). -/
def funcAllowed (owner f : Nat) : Bool :=
  if f = 0 || f = 9 || f = 10 then true
  else if f = 1 || f = 2 then owner == 1
  else if f = 3 || f = 4 then owner == 1 || owner == 2
  else owner == 2

/-- A read of a GPIO register (R552, R553). -/
def State.gpioValue (s : State) (off : Nat) : Word :=
  if off = O.GPIO_IN || off = O.GPIO_IN + 4 then
    let w := (off - O.GPIO_IN) / 4
    BitVec.ofNat 32 (loop (if w = 0 then 32 else 16) (fun b m => if s.pinLevel (32 * w + b) then m + 2 ^ b else m) 0)
  else if off = O.GPIO_SET || off = O.GPIO_SET + 4 then s.pf (O.GPIO_OUT + (off - O.GPIO_SET))
  else if off = O.GPIO_CLR || off = O.GPIO_CLR + 4 then s.pf (O.GPIO_OUT + (off - O.GPIO_CLR))
  else if off = O.GPIO_STATUS then wset (s.pf off) 12 8 s.pinConflict
  else if off = O.GPIO_STRAPS then BitVec.ofNat 32 s.pins.straps
  else if off = O.GPIO_TGL || off = O.GPIO_TGL + 4 || off = O.GPIO_LOCK_KEY then 0
  else s.pf off

/-- REFUSED for a write of the host (R549); `any` sets it whoever wrote (R550). -/
def State.gpioRefuse (s : State) (a : Agent) (any : Bool) : State :=
  if any || a = .host then s.pfOr O.GPIO_STATUS 1 else s

/-- How far an agent's lock sequence has come: host, or management as a whole (R550). -/
def State.lockSeq (s : State) (a : Agent) : Nat := if a = .host then s.pins.hostSeq else s.pins.mgtSeq
/-- Set it. -/
def State.setLockSeq (s : State) (a : Agent) (k : Nat) : State :=
  { s with pins := if a = .host then { s.pins with hostSeq := k } else { s.pins with mgtSeq := k } }
/-- A lock sequence is abandoned (R550). -/
def State.lockAbort (s : State) (a : Agent) : State := (s.setLockSeq a 0).pfOr O.GPIO_STATUS 2

/-- The pins of word w that an agent owns, as a mask. -/
def State.ownedMask (s : State) (a : Agent) (w : Nat) : Nat :=
  loop (if w = 0 then 32 else 16) (fun b m => if s.pinOwner (32 * w + b) = agentCode a then m + 2 ^ b else m) 0

/-- The pins of word w. -/
def pinWord (w : Nat) : Nat := if w = 0 then 0xFFFFFFFF else 0xFFFF

/-- A change of output values of word w: `f` gives the new word from the old one, `touch` the bits that the write aims at;
bits of pins that the agent does not own are ignored, which is a refusal (R549). -/
def State.gpioOut (s : State) (a : Agent) (w touch : Nat) (f : Nat → Nat) : State :=
  let own := s.ownedMask a w
  let touch := Nat.land touch (pinWord w)
  let s := if Nat.land touch own ≠ touch then s.gpioRefuse a false else s
  s.modPf (O.GPIO_OUT + 4 * w) fun x =>
    BitVec.ofNat 32 (Nat.land x.toNat (pinWord w - Nat.land touch own) ||| Nat.land (f x.toNat) (Nat.land touch own))

/-- A write of GPIO_CFG (R548 to R550). -/
def State.gpioCfg (s : State) (a : Agent) (p : Nat) (v : Word) : State :=
  let off := O.GPIO_CFG + 4 * p
  let old := s.pf off
  let owner := wbits old 31 30
  if tb (s.pf (O.GPIO_LOCKED + 4 * (p / 32))).toNat (p % 32) then s.gpioRefuse a true
  else if owner ≠ agentCode a then s.gpioRefuse a false
  else match findReg pfRegs off with
    | none => s
    | some (r, _) =>
      let (w, k) := r.write old v
      if !funcAllowed owner (wbits w 23 20) then s.gpioRefuse a true
      else
        let w := if a = .mgt then w else wset w 31 30 owner
        let changed := wbits w 23 20 ≠ wbits old 23 20 || wbits w 1 0 ≠ wbits old 1 0
        let s := if a = .host then s.pfCount O.GPIO_CLAMP_COUNT 31 0 k else s
        let s := if changed && (s.pins.leaving.find? fun e => e.1 == p).isNone then
            { s with pins := { s.pins with leaving := s.pins.leaving ++ [(p, ⟨s.pinDrive p, wbits old 23 20⟩)] } }
          else s
        s.setPf off w

/-- GPIO_TGL (R553). -/
def State.gpioToggle (s : State) (a : Agent) (w : Nat) (v : Word) : State :=
  s.gpioOut a w v.toNat fun x => Nat.xor x v.toNat

/-- GPIO_LOCK_KEY: steps 1 and 2 of the sequence (R550). -/
def State.gpioKey (s : State) (a : Agent) (v : Word) : State :=
  let key := wbits v 15 0
  let k := s.lockSeq a
  if k = 0 && key = 0x4C4B then s.setLockSeq a 1
  else if k = 1 && key = 0xB3B4 then s.setLockSeq a 2
  else s.lockAbort a

/-- GPIO_LOCKED: step 3 locks the owned pins of the mask; outside the sequence LOCK_ABORT sets (R550). -/
def State.gpioLock (s : State) (a : Agent) (w : Nat) (v : Word) : State :=
  if s.lockSeq a = 2 then (s.setLockSeq a 0).pfOr (O.GPIO_LOCKED + 4 * w) (Nat.land v.toNat (s.ownedMask a w))
  else s.lockAbort a

/-- A write of the block other than the steps of the lock sequence abandons a sequence under way (R550). -/
def State.gpioBetween (s : State) (a : Agent) : State := if s.lockSeq a = 0 then s else s.lockAbort a

/-- A write of a GPIO register by an agent (R549, R550, R553). -/
def State.gpioWrite (s : State) (a : Agent) (off : Nat) (v : Word) : State :=
  let at' (base : Nat) : Bool := off == base || off == base + 4
  if off = O.GPIO_LOCK_KEY then s.gpioKey a v
  else if at' O.GPIO_LOCKED then s.gpioLock a ((off - O.GPIO_LOCKED) / 4) v
  else
    let s := s.gpioBetween a
    if at' O.GPIO_OUT then s.gpioOut a ((off - O.GPIO_OUT) / 4) 0xFFFFFFFF fun _ => v.toNat
    else if at' O.GPIO_SET then s.gpioOut a ((off - O.GPIO_SET) / 4) v.toNat fun x => x ||| v.toNat
    else if at' O.GPIO_CLR then s.gpioOut a ((off - O.GPIO_CLR) / 4) v.toNat fun _ => 0
    else if at' O.GPIO_TGL then s.gpioToggle a ((off - O.GPIO_TGL) / 4) v
    else if off = O.GPIO_STATUS then s.modPf off fun w => clrBits w (Nat.land v.toNat 3)
    else if O.GPIO_CFG ≤ off && decide (off < O.GPIO_CFG + 192) && off % 4 = 0 then s.gpioCfg a ((off - O.GPIO_CFG) / 4) v
    else s

/-- Two fclk after a change of its setting, a pin acts by the new one (R548). -/
def State.gpioSettle (s : State) (p : Nat) : State :=
  { s with pins := { s.pins with leaving := s.pins.leaving.filter fun e => e.1 != p } }

/-- The crossing of pin p delivers k edges: they are counted and latch the source of the pin (R551). The latency of the crossing is
timing: a count is delivered as its handshake opens. -/
def State.pinDeliver (s : State) (p k : Nat) : State := (s.pfCount (O.GPIO_EVCNT + 4 * p) 15 0 k).chipEvent (128 + p)

/-- The crossing of pin p with the open handshake's accumulator, none while REQ and ACK agree (R515). -/
def State.setCross (s : State) (p : Nat) (acc : Option Nat) : State :=
  let rest := s.pins.cross.filter fun e => e.1 != p
  { s with pins := { s.pins with cross := match acc with | some a => (p, a) :: rest | none => rest } }

/-- The handshake of pin p closes: an accumulator that is not 0 opens the next one with its count and clears (R515). -/
def State.crossClose (s : State) (p : Nat) : State :=
  match s.pins.cross.find? fun e => e.1 == p with
  | none => s
  | some (_, 0) => s.setCross p none
  | some (_, a) => (s.setCross p (some 0)).pinDeliver p a

/-- An edge of pin p enters its crossing: it opens a handshake, or adds to the accumulator, which holds 15 at most; a further edge is
lost and sets OVERRUN (R515). With PIN of CDC_MODE at 1 an edge that comes while the one before is in its three flops is lost (R516). -/
def State.crossPulse (s : State) (p : Nat) : State :=
  match s.pins.cross.find? fun e => e.1 == p with
  | none => (s.setCross p (some 0)).pinDeliver p 1
  | some (_, a) =>
    if tb (s.pf O.CDC_MODE).toNat 0 then s
    else if a < 15 then s.setCross p (some (a + 1))
    else s.pfOr O.CDC_STATUS 1

/-- The pad of pin p is sampled: `level` is what the world outside gives it, and `closed` how many handshakes of its crossing have
closed since its last sample; one that ended in the three flops of R516 counts as closed (R515, R516, R551). -/
def State.gpioSample (s : State) (p : Nat) (level : Bool) (closed : Nat) : State :=
  let put (m : Nat) (b : Bool) : Nat := setBits m p p (b2n b)
  let s := loop (min closed 2) (fun _ s => s.crossClose p) s
  let s : State := { s with pins := { s.pins with ext := put s.pins.ext level } }
  let now := s.pinLevel p
  let was := tb s.pins.sampled p
  let s : State := { s with pins := { s.pins with sampled := put s.pins.sampled now } }
  let ev := wbits (s.pinCfg p) 17 16
  if now = was || !tb ev (if now then 0 else 1) then s else s.crossPulse p

end Sys2Proof.Machine
end

