-- ==== Sys2Proof/Machine/Stream.lean ====
section
/-! DEFINITION. Frame packets, stream slots and the Whistle's bookkeeping (08_stream_output.md, R232 to R260), shared by the
commands of the stream and by the instance fault reaction. -/
namespace Sys2Proof.Machine

/-- Write bytes of HBM as the device does, whole words stored clean (R406, R417). -/
def State.wrHbm (s : State) (a : Nat) (data : List Byte) : State :=
  let s := s.eccWrite .hbm a data.length
  { s with hbm := putBytes s.hbm a data }

/-- Bytes of one stream slot (R246). -/
def Inst.slotBytes (i : Inst) : Nat := streamMib i.adm.cls * 262144
/-- HBM address of a stream slot. -/
def Inst.slotAt (i : Inst) (slot : Nat) : Nat := i.adm.strmB + slot * i.slotBytes
/-- Slots that are not free (R248). -/
def Inst.usedSlots (i : Inst) : List Nat := (i.builds.map (·.slot) ++ i.packets.map (·.slot)).filter (· < 4)
/-- The lowest free slot: the manual leaves open which of several free slots is claimed (R247; DESIGN CHOICE, log entry 66). -/
def Inst.freeSlot (i : Inst) : Option Nat := (List.range 4).find? fun k => !i.usedSlots.contains k
/-- A monitor output holds a slot of instance n (R248, R271). -/
def State.slotHeld (s : State) (n slot : Nat) : Bool := s.mons.any fun m => m.holds == some (n, slot)

/-- End the watchdogs of a frame and of those before it (R256). -/
def Inst.seenFrame (i : Inst) (frame : Nat) : Inst := { i with whDue := i.whDue.filter fun f => decide (frame < f) }

/-- Drop the oldest complete packet that may be dropped (R250). -/
def State.dropOldest (s : State) (n : Nat) : Option State :=
  let i := s.inst n
  match i.packets.find? fun p => !p.fault && !p.moved && decide (p.slot < 4) && !s.slotHeld n p.slot with
  | none => none
  | some p =>
    let i : Inst := { i with packets := i.packets.filter (· != p), dropped := min 255 (i.dropped + 1) }
    some (s.setInst n ((i.seenFrame p.frame).modReg O.STR_DROPPED fun w => countUp w 31 0 1))

/-- Claim a slot: a free one, or with DROP_OLDEST that of the oldest packet (R247, R250). -/
def State.claimSlot (s : State) (n : Nat) : Option (Nat × State) :=
  match (s.inst n).freeSlot with
  | some k => some (k, s)
  | none =>
    if !tb ((s.inst n).reg O.STR_CTRL).toNat 0 then none else
    match s.dropOldest n with
    | none => none
    | some s => (s.inst n).freeSlot.map fun k => (k, s)

/-- The header of a packet (R233), its last word the CRC of the words before it. -/
def packetHeader (n : Nat) (a : Admit) (frame total video samples : Nat) (timing : Word)
    (dropped late marks gain fsig isig pcrc : Nat) : List Byte :=
  let h := leBytes 4 0x50465943 ++ leBytes 2 1 ++ leBytes 2 n ++ leBytes 8 frame ++ leBytes 4 total ++ leBytes 4 video
    ++ leBytes 2 samples ++ leBytes 1 (wbits timing 5 0) ++ leBytes 1 (wbits timing 23 16)
    ++ leBytes 1 (a.cls + 4 * b2n a.rate50 + 8 * b2n a.aud32) ++ leBytes 1 (min dropped 255) ++ leBytes 2 (min late 0xFFFF)
    ++ leBytes 4 marks ++ leBytes 2 gain ++ leBytes 2 0 ++ leBytes 4 fsig ++ leBytes 4 isig ++ leBytes 4 pcrc ++ leBytes 8 0
  h ++ leBytes 4 (crc32 h)

/-- The MARKS of a frame but GAP and FAULT (R234). -/
def FrameBuild.marks (b : FrameBuild) (stale : Bool) : Nat :=
  b2n b.synth + 2 * b2n (decide (b.late ≠ 0)) + 4 * b2n b.modeCh + 8 * b2n b.rewound + 32 * b2n (decide (b.gain < 256))
    + 64 * b2n stale + 128 * b2n b.bellBad

/-- The marks of the frame in progress where no packet of it is under construction (R234): those that its packet would begin with. -/
def Inst.marksNow (i : Inst) : Nat :=
  b2n (decide (i.core.frame < i.released) && decide (field i.core.input 8 1 = 0)) + 4 * b2n i.modeCh + 8 * b2n i.rewound
    + 32 * b2n (decide (i.gain < 256))

/-- The bytes of a fault packet for a frame: a header with FAULT and the other marks that apply to the frame (R234, R237). -/
def Inst.faultBytes (i : Inst) (n frame : Nat) (b : Option FrameBuild) : List Byte :=
  let head (timing : Word) (late marks gain : Nat) : List Byte :=
    packetHeader n i.adm frame 64 0 0 timing 0 late (256 + marks) gain 0 0 (crc32 [])
  match b with
  | some b => head b.timing b.late (b.marks false) b.gain
  | none => head i.core.timing 0 i.marksNow i.gain

/-- The frame in progress: the lowest one whose packet is not complete (R237). -/
def Inst.inProgress (i : Inst) : Nat :=
  match i.builds with
  | b :: _ => b.frame
  | [] => max i.doneTo i.core.frame

/-- A fault packet that waits for a slot claims one as a frame would (R237, R248, R250). -/
def State.fillFault (s : State) (n : Nat) : State :=
  match (s.inst n).packets.find? fun p => p.slot == 4 with
  | none => s
  | some p => match s.claimSlot n with
    | none => s
    | some (k, s) =>
      (s.modInst n fun i => { i with packets := i.packets.map fun q => if q = p then { p with slot := k, data := [] } else q }).wrHbm
        ((s.inst n).slotAt k) p.data

/-- Complete a fault packet in place of the packet under construction (R237). -/
def State.faultPacket (s : State) (n : Nat) : State :=
  let i := s.inst n
  let b := i.builds.head?
  let frame := i.inProgress
  let data := i.faultBytes n frame b
  let slot := match b with | some b => b.slot | none => 4
  let p : Packet := { frame, slot, total := 64, seq := s.eng.seq, fault := true, data := if slot = 4 then data else [] }
  let s := s.setInst n (({ i with
    builds := [], doneTo := frame + 1, lastFault := true, modeCh := false, rewound := false, packets := i.packets ++ [p] }
      : Inst).seenFrame frame)
  let s := { s with eng := { s.eng with seq := s.eng.seq + 1, cmpQ := s.eng.cmpQ.filter fun j => j.inst != n } }
  if slot < 4 then s.wrHbm (i.slotAt slot) data else s.fillFault n

/-- A packet's slot frees unless a monitor output holds it (R248). -/
def State.releaseSlots (s : State) (n : Nat) : State :=
  (s.modInst n fun i => { i with packets := i.packets.filter fun p => !p.moved || s.slotHeld n p.slot }).fillFault n

/-- A finding of the Whistle sets its bit of STR_STATUS (0 FREEZE, 1 CORRUPT, 2 STALE) and fires its vector (R255, R256,
R260, R482). -/
def State.whistle (s : State) (n b : Nat) : State :=
  (s.modInst n fun i => i.modReg O.STR_STATUS fun w => orBits w (2 ^ b)).vfMsix n (2 + b)

/-- Reset the Whistle's history, watchdogs and stale count (R257). -/
def Inst.resetWhistle (i : Inst) : Inst := { i with hist := none, whDue := [], staleRun := 0, staleSig := none }

/-- Flash Mute as instance reset and a load leave it (R266). -/
def Inst.resetFlash (i : Inst) : Inst := { i with cells := [], calm := 0, gain := 256 }

end Sys2Proof.Machine
end

