-- ==== Sys2Proof/Machine/Rings.lean ====
section
/-! DEFINITION. The rings of a VF and the completions written to them (15_host_interface.md, R466 to R488), with the end of a
rung command (R449, R477). -/
namespace Sys2Proof.Machine

/-- LOG2 of ring r. -/
def Vf.ringLog (v : Vf) (r : Nat) : Nat := v.rbits (O.HST_VF_RING_SIZE + 32 * r) 4 0
/-- Entries of ring r. -/
def Vf.ringLen (v : Vf) (r : Nat) : Nat := 2 ^ v.ringLog r
/-- The device's pointer of ring r. -/
def Vf.devPtr (v : Vf) (r : Nat) : Nat := v.rbits (O.HST_VF_DEV_PTR + 32 * r) 21 0
/-- The host's pointer of ring r. -/
def Vf.hostPtr (v : Vf) (r : Nat) : Nat := v.rbits (O.HST_VF_DB + 4096 * r) 21 0
/-- Bytes of an entry of ring r (R468). -/
def ringEntry (r : Nat) : Nat := [64, 32, 32, 64, 256].getD r 0
/-- The smallest and largest LOG2 of ring r (R468). -/
def ringRange (r : Nat) : Nat × Nat := [(4, 12), (4, 10), (6, 14), (15, 22), (4, 10)].getD r (0, 0)
/-- Ring r is in use: enabled, and the VF may issue requests (R466, R470). -/
def Vf.ringOn (v : Vf) (r : Nat) : Bool := v.enabled && v.bme && !v.flr && tb (v.reg (O.HST_VF_RING_CTRL + 32 * r)).toNat 0
/-- Entries that a device-produced ring can take (R469, R470). -/
def Vf.ringRoom (v : Vf) (r : Nat) : Nat :=
  if v.ringOn r then v.ringLen r - 1 - (v.devPtr r + v.ringLen r - v.hostPtr r) % v.ringLen r else 0
/-- Entries of a host-produced ring that the device has not read (R471). -/
def Vf.ringPending (v : Vf) (r : Nat) : Nat :=
  if v.ringOn r then (v.hostPtr r + v.ringLen r - v.devPtr r) % v.ringLen r else 0
/-- The ring has room for a whole packet of `total` bytes and its completion (R479, R480). -/
def Vf.streamRoom (v : Vf) (total : Nat) : Bool := decide (total / 64 ≤ v.ringRoom 3) && decide (0 < v.ringRoom 2)
/-- The oldest complete packet of an instance that no mover has taken. -/
def Inst.nextPacket (i : Inst) : Option Packet := i.packets.find? fun p => !p.moved
/-- A complete packet waits for ring room (R249, R252). -/
def Inst.ringWaits (i : Inst) : Bool :=
  match i.nextPacket with | some p => !i.vf.streamRoom p.total | none => false
/-- IOVA of entry k of ring r. -/
def Vf.ringAddr (v : Vf) (r k : Nat) : Nat :=
  (v.reg (O.HST_VF_RING_HI + 32 * r)).toNat * 2 ^ 32 + (v.reg (O.HST_VF_RING_LO + 32 * r)).toNat + k * ringEntry r
/-- Move the device's pointer of ring r on by k entries; each pass flips the phase (R478). -/
def Vf.advance (v : Vf) (r k : Nat) : Vf :=
  let p := v.devPtr r + k
  let len := v.ringLen r
  { v.setReg (O.HST_VF_DEV_PTR + 32 * r) (BitVec.ofNat 32 (p % len)) with
    phases := if len ≤ p then v.phases.modify r (!·) else v.phases }
/-- Set a bit of HST_VF_STATUS with the event that vector 6 reports (R473, R482). -/
def State.vfStatus (s : State) (n b : Nat) : State :=
  (s.modVf n fun v => v.modReg O.HST_VF_STATUS fun w => orBits w (2 ^ b)).vfMsix n 6

/-- The bytes of a completion entry (R478). -/
def complBytes (kind status inst tag frame len marks aux seq phase : Nat) : List Byte :=
  leBytes 1 kind ++ leBytes 1 status ++ leBytes 2 inst ++ leBytes 4 tag ++ leBytes 8 frame ++ leBytes 4 len ++ leBytes 4 marks
    ++ leBytes 1 aux ++ leBytes 3 0 ++ leBytes 4 (seq % 65536 * 65536 + phase)

/-- Vector 0 after a completion entry (R483). -/
def State.complIrq (s : State) (n : Nat) : State :=
  let v := (s.inst n).vf
  let k := v.unsig + 1
  if v.rbits O.HST_VF_IRQ_MOD 23 16 ≤ k || v.rbits O.HST_VF_IRQ_MOD 15 0 = 0 then
    (s.modVf n fun v => { v with unsig := 0 }).vfMsix n 0
  else s.modVf n fun v => { v with unsig := k }

/-- Write a completion entry of instance n's VF, if there is room (R478, R479). -/
def State.complete (s : State) (n kind status tag frame len marks aux : Nat) : Option State :=
  let v := (s.inst n).vf
  if v.ringRoom 2 = 0 then none else
  let seq := v.seqs.getD 2 0 + 1
  let data := complBytes kind status n tag frame len marks aux seq (b2n (v.phases.getD 2 true))
  let s := s.send (.write (n + 1) (v.ringAddr 2 (v.devPtr 2)) data)
  some ((s.modVf n fun v => { v.advance 2 1 with seqs := v.seqs.set 2 seq }).complIrq n)

/-- An INPUT or RING_ERR completion, lost when there is no room (R479). -/
def State.completeOrLose (s : State) (n kind status tag frame aux : Nat) : State :=
  match s.complete n kind status tag frame 0 0 aux with
  | some s => s
  | none => s.modVf n fun v => v.modReg O.HST_VF_DROPS fun w => countUp w 15 0 1

/-- Drop a held input packet with a status (R475): TAG lies at offset 8 of the entry. -/
def State.inputStatus (s : State) (n status : Nat) (entry : List Byte) : State :=
  s.completeOrLose n 2 status (field entry 8 4) (field entry 0 8) 0

/-- LAST_OP and RESULT after a command (R460); a ring entry that is no command of R450 leaves them (R477). -/
def Inst.noteCmd (i : Inst) (c : RungCmd) (result : Nat) : Inst :=
  if c.op = 0 || 9 < c.op || result = 15 then i else i.setReg O.BLW_CMD_STATUS (BitVec.ofNat 32 (c.op * 16 + result))

/-- The rung command of an instance ends with a result (R451, R460). A command of the ring writes its completion, or waits
for room (R477). -/
def State.endCmd (s : State) (n result : Nat) : State :=
  let i := s.inst n
  match i.running with
  | none => s
  | some c =>
    match c.tag with
    | none => s.setInst n (({ i with running := none } : Inst).noteCmd c result)
    | some tag =>
      match s.complete n 3 result tag 0 0 0 c.op with
      | some s => s.modInst n fun i => ({ i with running := none } : Inst).noteCmd c result
      | none => s.setInst n { i with running := some { c with ended := some result } }

/-- A ring command whose completion waited for room writes it once there is room (R477). -/
def State.retryCmd (s : State) (n : Nat) : State :=
  match (s.inst n).running with
  | some c => match c.ended with
    | some r => if 0 < (s.inst n).vf.ringRoom 2 then s.endCmd n r else s
    | none => s
  | none => s

end Sys2Proof.Machine
end

