-- ==== Sys2Proof/Machine/React.lean ====
section
/-! DEFINITION. The fault reactions (17_safety.md, R529 to R536) and the end of every command: the causes that it detected
take their reactions, and the chip interrupt controller follows its sources. -/
namespace Sys2Proof.Machine

/-- The returns from interrupts under way complete, as their threads reach the next word boundary (R355, R452). -/
def Core.finishReturns (c : Core) : Core :=
  c.micro.foldl (fun c m => match m.2 with | .endService t d => c.endReturn t d | _ => c)
    { c with micro := c.micro.filter fun m => match m.2 with | .endService _ _ => false | _ => true }

/-- The instance stops as HOLD_NOW leaves it (R452, R459): Held, AT_BOUNDARY only when checkpoint F of its boundary is
taken; no watchdog runs (R452), and the host position stays where it is (R580). -/
def Inst.stopNow (i : Inst) : Inst :=
  { i with rung := .held, aligned := i.ckptDone, whDue := [], hostAt := i.hostPos, core := i.core.finishReturns }

/-- The instance fault reaction on the causes found for instance n, which count as detected together (R530, R531). -/
def State.instReact (s : State) (n : Nat) : State :=
  let i := s.inst n
  if i.found.isEmpty then s else
  let s := i.found.foldl (fun s c =>
    (s.pfCount (O.SAF_INST_CAUSE + 4 * n) 31 24 1).addRec 1 c.1 n 0xFFFF c.2) (s.setInst n { i with found := [] })
  if i.faultHeld then s else
  let s := (s.faultPacket n).modInst n fun i => { (if i.rung = .playing then i.stopNow else i) with catchUp := none }
  let s := (s.endCmd n 9).modInst n fun i => { i with faultHeld := true }
  let code := i.found.foldl (fun m c => min m c.1) 255
  ((s.pfOr (O.SAF_INST_FAULT + 4 * (n / 32)) (2 ^ (n % 32))).pfSet (O.SAF_INST_CAUSE + 4 * n) 7 0 code).vfMsix n 5

/-- A domain is ordered down and drains (R511). -/
def State.drain (s : State) (d : Nat) : State :=
  if tb (s.pf O.PWR_DOMAINS).toNat d && !s.power.draining.contains d then
    ({ s with power := { s.power with draining := s.power.draining ++ [d] } } : State).pfOr O.PWR_DOMAINS (2 ^ (16 + d))
  else s

/-- Both monitor outputs show black (R272, R523, R533). -/
def State.blackout (s : State) : State :=
  loop 2 (fun k s => s.pfOr (O.DPO_STATUS + 16 * k) (2 ^ 28))
    { s with mons := s.mons.map fun (m : Monitor) => { m with black := true } }

/-- The chip fault reaction on one cause (R532, R533); it aborts a Serfer operation (R60), and the rung commands under way end with
ABORTED, as in every reaction (R454; DEDUCED for instances below Held, log entry 71). -/
def State.chipReact (s : State) (cause addr : Nat) : State :=
  let first := !s.chipFault
  let s := (s.pfOr O.SAF_CHIP_CAUSE (2 ^ cause)).addRec 2 cause 0xFFFF 0xFFFF addr
  let s := if cause < 2 then { s with safety := { s.safety with halted := cause :: s.safety.halted } } else s
  let s := if cause = 5 || cause = 6 then
      [0, 5, 6, 7, 8, 9, 10, 11, 12, 1, 2, 3, 4].foldl (fun s d => s.drain d) s
    else s
  if !first then s else
  let s := (s.pfOr O.SAF_STATUS (2 ^ 31)).pfSet O.SAF_STATUS 3 0 cause
  let s := ({ s with op := none, safety := { s.safety with faultN := true } } : State).blackout
  s.insts.foldl (fun s e =>
    if e.2.adm.state ≠ 2 then s
    else if e.2.rung = .playing then s.foundFault e.1 0x0D 0
    else (s.endCmd e.1 9).modInst e.1 fun i => { i with faultHeld := true }) s

/-- The reactions to every cause that the command has detected. -/
def State.react (s : State) : State :=
  let s := s.safety.found.foldl (fun s c => s.chipReact c.1 c.2) { s with safety := { s.safety with found := [] } }
  if s.insts.any fun e => !e.2.found.isEmpty then s.insts.foldl (fun s e => s.instReact e.1) s else s

/-- What a command answers. -/
abbrev Result := Host.Outcome State Fault Refusal

/-- The end of a command: reactions, then the level sources of the chip interrupt controller, and WAKE# (R507, R530, R533, R538). -/
def fin (s : State) : Result := .next s.react.icuLevels

end Sys2Proof.Machine
end

