-- ==== Sys2Proof/Machine/Power.lean ====
section
/-! DEFINITION. The power ladder (16_clocks_power_crossings.md, R500 to R512): states, orders, entries, draining, wakes and
the governor of ramps. -/
namespace Sys2Proof.Machine

/-- The chip is in Run or Idle with no entry or exit under way, so that work may start (R504, R506). -/
def State.awake (s : State) : Bool := decide (s.pwr ≤ 1) && s.power.goal.isNone
/-- Domain d is on or gated (R520). -/
def State.powered (s : State) (d : Nat) : Bool := tb (s.pf O.PWR_DOMAINS).toNat d
/-- Domain d is draining (R511). -/
def State.isDraining (s : State) (d : Nat) : Bool := s.power.draining.contains d

/-- A rung command runs or waits (R449). -/
def State.rungBusy (s : State) : Bool := s.insts.any fun e => e.2.running.isSome
/-- A Serfer operation, rung command or Extent Table command is running (R502, R503). -/
def State.opBusy (s : State) : Bool := s.op.isSome || s.rungBusy || s.mem.extCmd.isSome

/-- Output k is enabled: EN, unless an entry has stopped the monitor outputs (R270, R504). -/
def State.dpoOn (s : State) (k : Nat) : Bool := tb (s.pf (O.DPO_CTRL + 16 * k)).toNat 31 && s.awake
/-- LINK_UP of output k. -/
def State.dpoUp (s : State) (k : Nat) : Bool := tb (s.pf (O.DPO_STATUS + 16 * k)).toNat 30

/-- Descriptors of an enabled mover ring that it has not read (R396). -/
def State.mvPending (s : State) (r : Nat) : Nat :=
  let o := 32 * r
  let len := 2 ^ s.pfBits (O.HST_MV_RING_SIZE + o) 4 0
  if tb (s.pf (O.HST_MV_RING_CTRL + o)).toNat 0 then
    (s.pfBits (O.HST_MV_TAIL + o) 15 0 + len - s.pfBits (O.HST_MV_HEAD + o) 15 0) % len
  else 0

/-- What step k of an entry orders down (R504). -/
def entryStep (target k : Nat) : List Nat :=
  match k with
  | 0 => [5, 6, 7, 8, 9, 10, 11, 12]
  | 1 => if target = 3 then [0, 1, 2, 3, 4] else [1, 2, 3, 4]
  | _ => [13]

/-- What FAB and POOL lose as they go off (R500, R504, R510, R533): the Pool, and what the monitor outputs show and play. For Doze the
Bell banks are copied to the HBM and come back, with the fabric and credit tables and the Extent Table. -/
def State.poolOff (s : State) : State :=
  { s with
    pool := s.pool.filter fun e => s.power.goal.isSome && decide (0x6880000 ≤ e.1) && decide (e.1 < 0x7880000)
      && decide ((e.1 - 0x6880000) % 0x8000 < 0x6000)
    mem := { s.mem with poolCe := [], poolUe := [] }
    mons := s.mons.map fun (m : Monitor) => { m with picture := [], black := true, showing := none, audio := [], playing := false, sending := [] } }

/-- FAB and POOL have all gone off, in an entry of Doze or after a chip fault (R500, R504, R533). -/
def State.fabricLost (s : State) : Bool :=
  (if s.power.goal.isSome then s.power.entry == 3 else s.chipFault) && !([0, 1, 2, 3, 4].any s.powered)

/-- An entry ends in its state (R504). -/
def State.endEntry (s : State) (target : Nat) : State :=
  let s : State := { s with power := { s.power with goal := none } }
  ((s.pfSet O.PWR_STATUS 31 29 target).pfSet O.PWR_STATUS 28 28 0).chipEvent 7

/-- Set the governor's count of waiting requests (R520). -/
def State.setQueue (s : State) (q : List Nat) : State :=
  ({ s with power := { s.power with queue := q } } : State).pfSet O.PWR_GOV_STATUS 12 8 q.length

/-- Domain d ramps in a slot of the governor (R509, R520). -/
def State.ramping (s : State) (d : Nat) : Bool := s.pfBits O.PWR_GOV_STATUS 3 0 == d || s.pfBits O.PWR_GOV_STATUS 7 4 == d
/-- Nothing ramps, and nothing waits to ramp. -/
def State.rampsDone (s : State) : Bool := s.power.queue.isEmpty && s.pfBits O.PWR_GOV_STATUS 7 0 == 0xFF

/-- An exit begins from what the entry has reached (R506, R508 to R510): FAB, POOL from off, CORE and REND queue for
ramps, while POOL in retention and the HBM come back beside them. -/
def State.beginExit (s : State) : State :=
  let off (d : Nat) : Bool := !s.powered d && !s.ramping d
  let ramps := ([0] ++ (if s.power.entry = 3 then [1, 2, 3, 4] else []) ++ [5, 6, 7, 8, 9, 10, 11, 12]).filter off
  let back := (if s.power.entry = 3 then [] else [1, 2, 3, 4]) ++ [13]
  let s : State := { s with power := { s.power with goal := some 1 } }
  (back.foldl (fun s d => s.pfOr O.PWR_DOMAINS (2 ^ d)) (s.pfSet O.PWR_STATUS 28 28 1)).setQueue ramps

/-- The chip reaches Idle (R504 to R506): BUSY clears, and the Pool scrubber starts a fresh pass; the mirrored writes land next
(`State.applyMirror`). An entry that a wake cut short before its state was reached is no exit that WAKES counts (DEDUCED). -/
def State.reachIdle (s : State) : State :=
  let was := s.pwr
  let s : State := { s with power := { s.power with goal := none } }
  let s := ((s.pfSet O.PWR_STATUS 31 29 1).pfSet O.PWR_STATUS 28 28 0).pfSet O.POOL_SCRUB_STATUS 12 0 0
  (if 2 ≤ was then s.pfCount O.PWR_STATUS 15 0 1 else s).chipEvent 7

/-- The exit ends once nothing ramps or waits. -/
def State.exitDone (s : State) : State :=
  if s.power.goal = some 1 && s.power.draining.isEmpty && s.rampsDone then s.reachIdle else s

/-- The entry goes on once nothing drains or ramps: its next step orders its domains down, or it ends; an entry that a wake has
turned round exits (R504, R506). An entry of Retain from Doze powers up FAB, and POOL on its way to retention (R500, R508; DEDUCED). -/
def State.nextStep (s : State) : State :=
  if !s.power.draining.isEmpty then s else
  let s := if s.fabricLost then s.poolOff else s
  match s.power.goal with
  | none => s
  | some t =>
    if !s.rampsDone then s
    else if t < 2 then s.beginExit.exitDone
    else match (List.range 3).find? fun k => (entryStep t k).any s.powered with
      | none => if t = 2 && !s.powered 0 then s.setQueue [0, 1, 2, 3, 4] else s.endEntry t
      | some k => (entryStep t k).foldl (fun s d => s.drain d) s

/-- The ramps of an entry of Retain from Doze have ended: its steps follow. -/
def State.entryRamped (s : State) : State :=
  if s.power.goal = some 2 && s.power.draining.isEmpty && s.rampsDone then
    ({ s with power := { s.power with entry := 2 } } : State).nextStep
  else s

/-- Domain d has drained: its crossings are reset and it goes off, into retention or into self-refresh (R511). -/
def State.drained (s : State) (d : Nat) : State :=
  let s : State := { s with power := { s.power with draining := s.power.draining.filter (· != d) } }
  (s.modPf O.PWR_DOMAINS fun w => clrBits w (2 ^ (16 + d) + 2 ^ d)).nextStep

/-- The result of an order (R503). -/
def State.pwrResult (s : State) (r : Nat) : State := s.pfSet O.PWR_STATUS 23 20 r

/-- A write of RETAIN or DOZE to TARGET (R503, R504). -/
def State.orderDown (s : State) (target : Nat) : State :=
  let busy (e : Inst) : Bool := e.adm.state == 2
    && (if target = 2 then e.rung == .playing || e.rung == .held else e.rung != .shelved)
  if s.power.goal.isSome || s.opBusy then s.pwrResult 2
  else if s.insts.any fun e => busy e.2 then s.pwrResult 1
  else if s.pwr = target then s.pwrResult 0
  else
    let down := s.pwr = 2 || s.pwr = 3
    let s := ((s.pfSet O.PWR_CTRL 2 0 target).pwrResult 0).pfSet O.PWR_STATUS 28 28 1
    let snap := ((List.range 0x300).map fun k => O.GPIO_IN + 4 * k).foldl
      (fun (m : Map Word) o => if down then m else m.set zeroAt o (s.gpioValue o)) s.power.mirror
    ({ s with power := { s.power with goal := some target, entry := if down then max s.power.entry target else target, mirror := snap } } : State).nextStep

/-- A wake write (R506). `run` tells a write of RUN, whose RESULT is OK. An entry that has ordered nothing down, or waits for ramps
only, turns round at once. -/
def State.wake (s : State) (run : Bool) : State :=
  let entering := s.power.goal = some 2 || s.power.goal = some 3
  let asleep := decide (2 ≤ s.pwr) && s.power.goal.isNone
  if !entering && !asleep then s else
  let s := (s.pfSet O.PWR_CTRL 2 0 0).pwrResult (if run then 0 else 3)
  if entering && !s.power.draining.isEmpty then { s with power := { s.power with goal := some 1 } } else s.beginExit

/-- The priority of a domain's request (R509). -/
def rampPrio (d : Nat) : Nat := if d < 5 then 2 else 1

/-- The governor starts the next ramp in a free slot (R508, R509). -/
def State.rampStart (s : State) : State :=
  let free := if s.pfBits O.PWR_GOV_STATUS 3 0 = 0xF then some 0 else if s.pfBits O.PWR_GOV_STATUS 7 4 = 0xF then some 1 else none
  match free, (s.power.queue.find? fun d => rampPrio d == 2).or s.power.queue.head? with
  | some k, some d => (s.setQueue (s.power.queue.filter (· != d))).pfSet O.PWR_GOV_STATUS (4 * k + 3) (4 * k) d
  | _, _ => s

/-- The ramp of domain d ends (R508, R509). -/
def State.rampEnd (s : State) (d : Nat) : State :=
  let slot (k : Nat) : Bool := s.pfBits O.PWR_GOV_STATUS (4 * k + 3) (4 * k) = d
  if 15 ≤ d then s
  else if slot 0 then ((s.pfSet O.PWR_GOV_STATUS 3 0 0xF).pfOr O.PWR_DOMAINS (2 ^ d)).exitDone.entryRamped
  else if slot 1 then ((s.pfSet O.PWR_GOV_STATUS 7 4 0xF).pfOr O.PWR_DOMAINS (2 ^ d)).exitDone.entryRamped
  else s

/-- A write of PWR_CTRL (R503, R506, R520). After a chip fault it is refused with BUSY, whatever its TARGET (R534). -/
def State.pwrCtrl (s : State) (v : Word) : State :=
  let t := wbits v 2 0
  if s.chipFault then s.pwrResult 2
  else if t = 2 || t = 3 then s.orderDown t
  else
    let s := if t = 0 then s else s.pfCount O.PWR_CLAMP_COUNT 31 0 1
    if s.awake then (s.pfSet O.PWR_CTRL 2 0 0).pwrResult 0 else s.wake true

end Sys2Proof.Machine
end

