-- ==== Sys2Proof/Machine/Reach.lean ====
section
/-! DEFINITION. How an access reaches the device (00_scope.md, R3, R4, R13; 15_host_interface.md, R462, R465, R466, R489, R492,
R493; 18_pins_boot.md, R560): which requests arrive, which are unsupported, which meet a window without registers, and what the
host is answered. -/
namespace Sys2Proof.Machine

/-- The instance window that an offset of PF BAR0 lies in (R13). -/
def pfTarget (off : Nat) : RegAddr :=
  if 0x2000000 ≤ off && decide (off < 0x4000000) then .win ((off - 0x2000000) / 65536) (off % 65536) else .pf off

/-- What an access from a path aims at. -/
def aimOf (p : Path) (a : RegAddr) : RegAddr :=
  match p, a with
  | .pf, .pf off => pfTarget off
  | _, a => a

/-- What becomes of a host request: no request arrives, Unsupported Request, a window without registers (R4), or the
register. -/
inductive Hit where
  | none
  | unsupported
  | hollow
  | open
  deriving DecidableEq, Repr

/-- The device answers memory requests: the link is up, boot has ended, and the link is not in L1.2 (R462, R507). -/
def State.linkOpen (s : State) : Bool := s.host.linkUp && s.boot.ready && decide (s.pwr ≠ 4)

/-- Where a host request lands (R466, R489, R492, R549, R560). A management pair that has not
halted (R533) reaches the GPIO block alone in this model. -/
def State.hostHit (s : State) (p : Path) (a : RegAddr) : Hit :=
  match p with
  | .pf =>
    if !s.linkOpen then .none
    else match a with
      | .bar2 _ _ | .cfg _ _ => .none
      | .win n _ => if !s.host.mse then .unsupported else if s.boot.recovery || decide (512 ≤ n) then .hollow else .open
      | .pf off =>
        if !s.host.mse || decide (0x4000000 ≤ off) then .unsupported
        else if s.boot.recovery && off ≠ 0 && !(decide (0xD00000 ≤ off) && decide (off < 0xE00000)) then .hollow
        else .open
  | .vf =>
    if !s.linkOpen then .none
    else match a with
      | .pf _ | .cfg _ _ => .none
      | .win n _ | .bar2 n _ =>
        let v := (s.inst n).vf
        if 512 ≤ n then .none
        else if !v.enabled || !v.mse then .unsupported
        else if s.boot.recovery || v.flr then .hollow else .open
  | .mgt k => match a with
    | .pf off => if s.boot.powered && !s.boot.perst && !s.safety.halted.contains k && decide (0xB00000 ≤ off) && decide (off < 0xC00000) then .open else .none
    | _ => .none
  | .prog _ => .none

/-- A function notes an error, by the bit that AER gives it in its status (R489, R464): 12 a poisoned TLP, 18 a malformed one. -/
def State.aerNote (s : State) (fn bit : Nat) : State :=
  { s with host := { s.host with aer := if s.host.aer.contains (fn, bit) then s.host.aer else (fn, bit) :: s.host.aer } }

/-- The function that a request aims at: the VF of an access by the VF's BARs, else the PF. -/
def aimedFn (p : Path) (a : RegAddr) : Nat :=
  match p, a with
  | .vf, .win n _ | .vf, .bar2 n _ => n + 1
  | _, _ => 0

/-- A memory request of the host that PCIe calls malformed (R489; PRESUMED, log entry 13): it crosses a 4 KiB boundary. -/
def malformed (p : Path) (a : RegAddr) (width : Nat) : Bool :=
  let beyond (off : Nat) : Bool := decide (4096 < off % 4096 + width)
  match p, a with
  | .pf, .pf off | .pf, .win _ off | .vf, .win _ off | .vf, .bar2 _ off => beyond off
  | _, _ => false

/-- A malformed request is discarded without an answer, and the PF reports it. -/
def State.malformedTlp (s : State) : State := if s.linkOpen then s.aerNote 0 18 else s

/-- Note what the host is answered. -/
def State.answered (s : State) (t : Tlp) : State := { s with answer := some t }

/-- The register mirror stands for the blocks that it covers: from the snapshot of an entry to the end of the exit (R504, R505;
DEDUCED, log entry 71: an entry and an exit are part of it, since the snapshot is taken at step 2 and the mirrored writes land at the
end of the exit). -/
def State.mirrored (s : State) : Bool := s.pwr == 2 || s.pwr == 3 || s.power.goal.isSome

/-- An access that the mirror covers (R505): all but those of the clocks and power block, the safety block, the chip ICU, the
management mailbox, the Serfer block and the host interface block. -/
def mirrorHolds (p : Path) (a : RegAddr) : Bool :=
  match p, a with
  | .pf, .pf off => !([1, 8, 9, 10, 12, 13].contains (off / 0x100000))
  | .pf, .win _ _ | .vf, .win _ _ | .vf, .bar2 _ _ => true
  | _, _ => false

/-- EN of ring 1 of instance n as the mirror holds it, with the accesses since (R470, R505). -/
def State.cmdRingOn (s : State) (n : Nat) : Bool :=
  let v := (s.inst n).vf
  v.bme && !v.flr && s.power.mirrorOps.foldl (fun on o => match o with
    | .write .vf (.bar2 m off) 4 x => if m = n && off = O.HST_VF_RING_CTRL + 32 then tb x 0 else on
    | _ => on) (tb (v.reg (O.HST_VF_RING_CTRL + 32)).toNat 0)

/-- A write that the mirror covers is a wake write (R506): an OP of BLW_CMD or EXT_CMD that starts a command, or the doorbell of an
enabled CMD ring. After a chip fault an OP is ignored (R534). -/
def State.wakes (s : State) (a : RegAddr) (width v : Nat) : Bool :=
  let op := v / 2 ^ 28 % 16
  width == 4 && match a with
    | .win n off => off == O.BLW_CMD && decide (n < 512) && decide (1 ≤ op) && decide (op ≤ 9) && !s.chipFault
    | .pf off => off == O.EXT_CMD && decide (1 ≤ op) && decide (op ≤ 5) && !s.chipFault
    | .bar2 n off => off == O.HST_VF_DB + 4096 && s.cmdRingOn n
    | .cfg _ _ => false

/-- Note an access that meets the mirror. -/
def State.mirrorNote (s : State) (o : MirrorOp) : State :=
  { s with power := { s.power with mirrorOps := s.power.mirrorOps ++ [o] } }

/-- A host write request of `v`: `f` acts on the register if the request reaches it. While the register mirror stands for the block the
write lands there, and the action of a wake write waits for Idle (R505, R506). -/
def State.hostWrite (s : State) (p : Path) (a : RegAddr) (width v : Nat) (f : State → State) : State :=
  match s.hostHit p a with
  | .none => s
  | .unsupported => s.answered .unsupported
  | .hollow => s.answered .done
  | .open =>
    let s := s.answered .done
    if !(s.mirrored && mirrorHolds p a) then f s
    else if s.wakes a width v then (s.wake false).mirrorNote (.act p a width v)
    else s.mirrorNote (.write p a width v)

/-- A host read request: `f` gives the value and the state after the read. While the register mirror stands for the block, the value is
that of the blocks with the mirrored accesses applied, which `view` gives, and the read lands in the mirror (R505). -/
def State.hostRead (s : State) (p : Path) (a : RegAddr) (width : Nat) (view : State → State) (f : State → Nat × State) : State :=
  match s.hostHit p a with
  | .none => s
  | .unsupported => s.answered .unsupported
  | .hollow => s.answered (.data 0)
  | .open =>
    if !(s.mirrored && mirrorHolds p a) then (let (v, s) := f s; s.answered (.data v))
    else
      let (v, t) := f (view s)
      (({ s with free := t.free } : State).mirrorNote (.read p a width)).answered (.data v)

/-- Thread t's next word, if it is a long LW or SW that reaches the window offset `off` through a segment of space IO (R310,
R322), a store with the value `v`. -/
def State.nextAccess (s : State) (n t off : Nat) (v : Option Word) : Option FmtM :=
  match s.fetch n t ((s.core n).thread t).pos with
  | .ok w _ => if s.longAccess n t off w v then some (fmtM w) else none
  | _ => none

/-- Thread t executes its next word, which stores `v` to the window offset `off`; any other next word leaves the state. -/
def State.storeIo (s : State) (n t off : Nat) (v : Word) : State :=
  match s.nextAccess n t off (some v) with
  | some f => s.storeWord n t 0x1A 4 f
  | none => s

/-- Thread t executes its next word, which loads from the window offset `off`. -/
def State.loadIo (s : State) (n t off : Nat) : State :=
  match s.nextAccess n t off none with
  | some f => s.loadWord n t 0x14 4 f (BitVec.ofNat 32)
  | none => s

end Sys2Proof.Machine
end

