-- ==== Sys2Proof/Machine/Cart.lean ====
section
/-! DEFINITION. The cartridge cache and the Extent Table (13_memory.md, R421 to R430): leaves written back, dropped, evicted
and fetched, the commands of EXT_CMD, and the span registers. -/
namespace Sys2Proof.Machine

/-- The PF may issue requests: else its traffic waits in wall time (R466). -/
def State.pfTraffic (s : State) : Bool := s.host.bme && s.host.linkUp

/-- Frames of the cartridge cache that TARGET 1 entries leave to it (R416, R422); `except` names an entry to leave out. -/
def State.cacheFrames (s : State) (except : Nat) : Nat :=
  (0x900000000 - s.image.bases.getD 6 0) / 65536
    - 256 * (s.mem.ext.filter fun e => e.1 != except && tb e.2 0 && tb e.2 1).length

/-- Write a leaf back to host memory, if it is dirty (R426). -/
def State.writeBack (s : State) (x : Leaf) : State :=
  if !x.dirty then s else
  let s := s.send (.write 0 ((s.extEntry x.extent).addr + x.leaf * 65536) (getBytes x.cells 0 65536))
  { s with mem := { s.mem with
      leaves := s.mem.leaves.map fun y => if y.extent == x.extent && y.leaf == x.leaf then { y with dirty := false } else y } }

/-- Write back the dirty leaves of an extent (R426, R429). -/
def State.flushExtent (s : State) (e : Nat) : State :=
  (s.mem.leaves.filter fun x => x.extent == e).foldl (fun s x => s.writeBack x) s

/-- Drop leaves of an extent: the clean ones, or all. -/
def State.dropExtent (s : State) (e : Nat) (all : Bool) : State :=
  let s := (s.mem.leaves.filter fun x => x.extent == e && (all || !x.dirty)).foldl (fun s x => s.keepCrcs x) s
  { s with mem := { s.mem with leaves := s.mem.leaves.filter fun x => !(x.extent == e && (all || !x.dirty)) } }

/-- Write back the dirty leaves of the extents that instance n owns (R453, R492). -/
def State.flushOwned (s : State) (n : Nat) : State :=
  (s.mem.leaves.filter fun x => (s.extEntry x.extent).owned && (s.extEntry x.extent).owner == n).foldl
    (fun s x => s.writeBack x) s

/-- The least recently used leaf that is not pinned (R424). -/
def lruLeaf (l : List Leaf) : Option Leaf :=
  l.foldl (fun b x => if x.pinned then b else
    match b with
    | none => some x
    | some y => if x.use < y.use then some x else some y) none

/-- Evict until at most `room` frames are in use (R424). -/
def State.evict (s : State) (room : Nat) : Nat → State
  | 0 => s
  | k + 1 =>
    if s.mem.leaves.length ≤ room then s else
    match lruLeaf s.mem.leaves with
    | none => s
    | some x =>
      let s := (s.writeBack x).keepCrcs x
      ({ s with mem := { s.mem with leaves := s.mem.leaves.filter fun y => !(y.extent == x.extent && y.leaf == x.leaf) } }
        : State).evict room k

/-- A leaf is valid and host-target, and misses (R424). -/
def State.leafMissing (s : State) (e l : Nat) : Bool :=
  let x := s.extEntry e
  decide (e < 131072) && x.valid && !x.target && decide (l < x.leaves) && (s.leaf? e l).isNone

/-- The cells of fetched bytes. -/
def leafCells (d : List Byte) : Map Byte := putBytes [] 0 (d.take 65536)

/-- A leaf arrives in a frame, after an eviction where the cache is full (R424). -/
def State.putLeaf (s : State) (e l : Nat) (d : List Byte) : State :=
  let cap := s.cacheFrames 131072
  let s := s.evict (cap - 1) (s.mem.leaves.length + 1)
  let pins := (s.mem.leaves.filter (·.pinned)).length
  s.useLeaf { extent := e, leaf := l, cells := leafCells d,
              pinned := (s.extEntry e).pin && decide (32768 ≤ cap - (pins + 1)) }

/-- An instance is neither Shelved, absent nor clamped (R429, R430). -/
def State.inUse (s : State) (n : Nat) : Bool := s.admitted n && (s.inst n).rung != .shelved

/-- The staged entry breaks R422. -/
def State.badEntry (s : State) (e v : Nat) : Bool :=
  let x := Sys2Proof.Machine.extEntry v
  !x.rsvOk || (x.valid &&
    (((x.writable || x.target) && !x.owned)
      || (x.target && (x.addr % 0x1000000 != 0 || decide (x.addr < s.image.bases.getD 6 0)
        || decide (0x900000000 < x.addr + 0x1000000)
        || s.mem.ext.any fun o => o.1 != e && tb o.2 0 && tb o.2 1 && bits o.2 63 16 == bits v 63 16))))

/-- The result with which a WRITE of an entry is refused, 0 where it is made (R429). -/
def State.extRefusal (s : State) (e v : Nat) : Nat :=
  let old := s.mem.ext.get zeroAt e
  let used := s.insts.any fun i =>
    let (f, c) := s.span i.1
    s.inUse i.1 && decide (f ≤ e) && decide (e < f + c)
  if setBits old 4 4 0 ≠ setBits v 4 4 0 && used then 1
  else if s.badEntry e v then 2
  else if tb v 0 && tb v 1 && decide (s.cacheFrames e < 32768 + 256) then 3
  else 0

/-- The staged entry (R430). -/
def State.extStaged (s : State) : Nat :=
  loop 4 (fun k a => a + (s.pf (O.EXT_STAGE + 4 * k)).toNat * 2 ^ (32 * k)) 0

/-- A WRITE of an entry has a dirty leaf to write back (R426, R466): one of its extent, or one that leaves with the frames that a
TARGET 1 entry takes. -/
def State.writesBack (s : State) (e v : Nat) : Bool :=
  s.mem.leaves.any (fun x => x.extent == e && x.dirty)
    || (tb v 0 && tb v 1 && decide (s.cacheFrames e - 256 < (s.mem.leaves.filter fun x => x.extent != e).length)
      && s.mem.leaves.any (·.dirty))

/-- A WRITE that is not refused (R422, R429): leaves written back and dropped, the entry replaced, the range of a TARGET 1
entry taken from the cache and zeroed. -/
def State.putEntry (s : State) (e v : Nat) : State :=
  let old := s.mem.ext.get zeroAt e
  let s := ((s.flushExtent e).dropExtent e true).eccWrite .ext (16 * e) 16
  let s : State := { s with mem := { s.mem with ext := s.mem.ext.set zeroAt e v
                                                crcs := if setBits old 4 4 0 = setBits v 4 4 0 then s.mem.crcs
                                                  else s.mem.crcs.filter fun x => x.1 / 4096 != e } }
  if tb v 0 && tb v 1 then
    let a := (s.extEntry e).addr
    let s : State := { s with hbm := clearRange s.hbm a 0x1000000,
                              mem := { s.mem with hbmCe := s.mem.hbmCe.filter fun w => decide (8 * w < a) || decide (a + 0x1000000 ≤ 8 * w),
                                                  hbmUe := s.mem.hbmUe.filter fun w => decide (8 * w < a) || decide (a + 0x1000000 ≤ 8 * w) } }
    s.evict (s.cacheFrames 131072) s.mem.leaves.length
  else s

/-- A write of EXT_CMD that acts, the chip being awake (R429, R430, R506, R534). -/
def State.extCmdWrite (s : State) (v : Word) : State :=
  let op := wbits v 31 28
  if s.mem.extCmd.isSome then s
  else
    let s := s.setPf O.EXT_CMD (BitVec.ofNat 32 (wbits v 16 0))
    if op = 0 || s.chipFault then s
    else if 5 < op then s.pfCount O.EXT_CLAMP_COUNT 31 0 1
    else ({ s with
        mem := { s.mem with extCmd := some (op * 2 ^ 28 + wbits v 16 0), extSeq := s.host.orders }
        host := { s.host with orders := s.host.orders + 1 } } : State).pfSet O.EXT_CMD_STATUS 31 31 1

/-- The running Extent Table command, if it is `op` and may act: its entry. -/
def State.extRuns (s : State) (op : Nat) : Option Nat :=
  match s.mem.extCmd with
  | some c => if c / 2 ^ 28 = op && s.awake then some (c % 2 ^ 28) else none
  | none => none

/-- An Extent Table command ends (R429). -/
def State.extEnd (s : State) (result : Nat) : State :=
  (({ s with mem := { s.mem with extCmd := none } } : State).setPf O.EXT_CMD_STATUS (BitVec.ofNat 32 result)).chipEvent 1

/-- The instance stands at the boundary of the next frame to be released, with its checkpoint taken, its lines rendered and
its packets complete (R433, R452). -/
def Inst.atRest (i : Inst) : Bool := i.ckptDone && i.jobs.isEmpty && i.rendering.isEmpty && i.builds.isEmpty

/-- A shelf image that the command of instance i moves, by the age of the command (R391, R453): the instance stands ready to leave
for Shelved, or leaves Shelved with a shelf image to read. -/
def Inst.shelfWork (i : Inst) : Option Nat :=
  match i.running with
  | some c =>
    if !c.queued && c.ended.isNone
      && (c.op == 6 && i.rung != .shelved && (i.rung != .playing || i.atRest)
        || i.rung == .shelved && i.shelfOk && [3, 4, 5].contains c.op) then some c.seq
    else none
  | none => none

/-- The ages of the moves that wait for channels 20 to 23 by an order of the host (R391): shelf images, the fetch of a Serfer image,
and a FETCH of leaves. -/
def State.works (s : State) : List Nat :=
  s.insts.filterMap (fun e => e.2.shelfWork)
    ++ (match s.op with | some o => if (o.op = 1 || o.op = 3) && o.phase = 1 then [o.seq] else [] | none => [])
    ++ (match s.mem.extCmd with | some c => if c / 2 ^ 28 = 5 then [s.mem.extSeq] else [] | none => [])

/-- A move of that age has reached one of the four channels, which take their work in order of age (R391). -/
def State.workTurn (s : State) (age : Nat) : Bool := decide ((s.works.filter fun a => decide (a < age)).length < 4)

/-- WRITE (R429): Extent Table WRITE: the staged entry replaces the entry after write-back and drop of its leaves. -/
def State.extWrite (s : State) : State :=
  match s.extRuns 1 with
  | none => s
  | some e =>
    let v := s.extStaged
    let r := s.extRefusal e v
    if r ≠ 0 then s.extEnd r
    else if !s.pfTraffic && s.writesBack e v then s
    else (s.putEntry e v).extEnd 0

/-- READ (R429). -/
def State.extRead (s : State) : State :=
  match s.extRuns 2 with
  | none => s
  | some e =>
    let v := s.mem.ext.get zeroAt e
    let s := match s.eccRange .ext 0 (16 * e) 16 with
      | (some u, s) => s.foundChip 8 (s.errAddr ⟨.ext, u / 8⟩)
      | (none, s) => s
    (loop 4 (fun k s => s.setPf (O.EXT_STAGE + 4 * k) (BitVec.ofNat 32 (v / 2 ^ (32 * k)))) s).extEnd 0

/-- FLUSH (R426, R429): posted writes return no status, and the command ends with OK. -/
def State.extFlush (s : State) : State :=
  match s.extRuns 3 with
  | none => s
  | some e =>
    if !s.pfTraffic && s.mem.leaves.any (fun x => x.extent == e && x.dirty) then s
    else (s.flushExtent e).extEnd 0

/-- DROP (R429). -/
def State.extDrop (s : State) : State :=
  match s.extRuns 4 with
  | none => s
  | some e => (s.dropExtent e false).extEnd 0

/-- A write of EXT_SPAN_FIRST or EXT_SPAN_COUNT of instance n (R430). -/
def State.extSpan (s : State) (n : Nat) (count : Bool) (v : Word) : State :=
  if s.inUse n then s.extFault n 4
  else
    let s := if count then s.setPf (O.EXT_SPAN_COUNT + 8 * n) (v &&& 0x3FFFF) else s.setPf (O.EXT_SPAN_FIRST + 8 * n) (v &&& 0x1FFFF)
    let (f, c) := s.span n
    if 131072 < f + c then (s.setPf (O.EXT_SPAN_COUNT + 8 * n) (BitVec.ofNat 32 (131072 - f))).pfCount O.EXT_CLAMP_COUNT 31 0 1
    else s

end Sys2Proof.Machine
end

