-- ==== Sys2Proof/Machine/Place.lean ====
section
/-! DEFINITION. Cores and slots (01_architecture.md, R17 to R20): healthy cores, audit cores, and the placement of instances on
slots. -/
namespace Sys2Proof.Machine

/-- Core c is healthy (R19). -/
def State.coreOk (s : State) (c : Nat) : Bool := decide (c < 66) && !tb s.safety.coreRet c
/-- The number of healthy cores h (R19). -/
def State.coresOk (s : State) : Nat := ((List.range 66).filter s.coreOk).length
/-- The cores that serve as audit cores: two of 66 healthy cores, one of fewer (R19), from the first of the present turn in
cyclic order (R526). -/
def State.auditCores (s : State) : List Nat :=
  (((List.range 66).map fun k => (s.safety.auditFrom + k) % 66).filter s.coreOk).take (if s.coresOk = 66 then 2 else 1)
/-- The core of an audit slot (R17, R19). -/
def State.auditCore (s : State) (slot : Nat) : Option Nat := s.auditCores[slot / 8]?

/-- The supply domain of core c (R500). -/
def coreDomain (c : Nat) : Nat := if c < 17 then 5 else if c < 34 then 6 else if c < 50 then 7 else 8

/-- The instance stands on its slots: it is Playing or Held (R18). -/
def Inst.onSlots (i : Inst) : Bool := i.adm.state == 2 && (i.rung == .playing || i.rung == .held)
/-- The global slots of an instance placed at p, one for each thread t0, t1, ... in ascending order (R17). -/
def Inst.slotsAt (i : Inst) (p : Nat) : List Nat := (List.range i.adm.slots).map (p + ·)
/-- The global slots on which the instance stands (R17, R18). -/
def Inst.slotsHeld (i : Inst) : List Nat :=
  match i.place with
  | some p => if i.onSlots then i.slotsAt p else []
  | none => []
/-- The core that serves the instance (R17, R18). -/
def Inst.servedBy (i : Inst) : Option Nat := if i.onSlots then i.place.map (· / 8) else none

/-- The cores that take instances: the healthy ones but for the audit cores (R19). -/
def State.instCores (s : State) : List Nat := (List.range 66).filter fun c => s.coreOk c && !s.auditCores.contains c
/-- The requested test runs on a unit (R528). -/
def State.testOn (s : State) (kind k : Nat) : Bool :=
  match s.safety.test with | some t => t.kind == kind && t.index == k && t.state == 2 | none => false

/-- Instance n can stand at global slot p: on one core that takes instances and is not under test, the first position a multiple
of its count of slots, and no other instance on them (R17, R18, R526). -/
def State.placeFits (s : State) (n p : Nat) : Bool :=
  let i := s.inst n
  let held := (s.insts.filter fun e => e.1 != n).flatMap fun e => e.2.slotsHeld
  s.instCores.contains (p / 8) && !s.testOn 3 (p / 8) && p % i.adm.slots == 0 && (i.slotsAt p).all fun q => !held.contains q

/-- Where instance n goes as it takes slots (R18): its place of the load or of its last entry if it fits, else the lowest place
that fits; none while no place is free. The manual leaves the place to the management pair: DESIGN CHOICE (log entry 35). -/
def State.placeFor (s : State) (n : Nat) : Option Nat :=
  let any := (s.instCores.flatMap fun c => (List.range 8).map (8 * c + ·)).find? fun p => s.placeFits n p
  match (s.inst n).place with
  | some p => if s.placeFits n p then some p else any
  | none => any

/-- The places that a load gives to the instances it admits (R18), given as number and count of slots: those of 4 slots first, then
those of 2 and of 1, side by side, so that every first position is a multiple of the count (DESIGN CHOICE, log entry 35). -/
def State.placeAll (s : State) (l : List (Nat × Nat)) : List (Nat × Nat) :=
  let cores := s.instCores
  (([4, 2, 1].flatMap fun k => l.filter fun e => e.2 == k).foldl (fun (a : Nat × List (Nat × Nat)) e =>
    (a.1 + e.2, (e.1, 8 * cores.getD (a.1 / 8) 0 + a.1 % 8) :: a.2)) (0, [])).2

end Sys2Proof.Machine
end

