-- ==== Sys2Proof/Machine/Bellows.lean ====
section
/-! DEFINITION. Checkpoints (14_checkpoints_ladder.md, R433 to R441): the core record and its encoding (R435, R581), the
digest (R439), the taking of a checkpoint, and the restore of an earlier one (R436). -/
namespace Sys2Proof.Machine

/-- One word of the record. -/
def w32 (v : Nat) : List Nat := [v % 2 ^ 32]
/-- A signed word. -/
def i32 (v : Int) : List Nat := [wrap 32 v]
/-- A 64-bit item: low word first (R581). -/
def w64 (v : Nat) : List Nat := [v % 2 ^ 32, v / 2 ^ 32 % 2 ^ 32]
/-- A stamp as its difference from the boundary (R581). -/
def stamp64 (v stamp : Nat) : List Nat := w64 (wrap 64 ((stamp : Int) - (v : Int)))

/-- THREE_FLOP of an instance (R518). -/
def State.threeFlop (s : State) (n : Nat) : Bool := tb (s.pf (O.CDC_INST_MODE + 4 * n)).toNat 0

/-- Shadowed registers of the composer (R179). -/
def shadowed (off : Nat) : Bool :=
  off == 0x3000 || off == 0x3004 || off == 0x3008 || off == 0x3020 || off == 0x3024
    || (decide (0x3100 ≤ off) && decide (off < 0x3200) && decide (off % 32 < 24))

/-- The offsets of the registers that the record holds, ascending (R435). -/
def recordRegs : List Nat :=
  ((List.range 0x1C00).map fun k => 4 * k).filter fun o =>
    !(decide (0x5000 ≤ o) && decide (o < 0x6000)) && o != 0xFFC && (findReg windowRegs o).isSome

/-- Section THREADS (R581). -/
def Inst.recThreads (i : Inst) (v : Nat) : List Nat :=
  (List.range i.adm.slots).flatMap fun t =>
    let x := i.core.thread t
    let tid := (if i.adm.slots = 4 then 2 else i.adm.slots - 1) * 4 + t
    let e := x.stack.reverse
    w32 x.pc.toNat ++ w32 tid ++ w32 x.tstat.toNat ++ w32 x.epc.toNat ++ w32 x.trapInfo.toNat ++ w32 x.trapCause.toNat
      ++ w32 x.trapAddr.toNat ++ w32 x.scratch0.toNat ++ w32 x.scratch1.toNat
      ++ ((List.range 31).map fun k => (x.gr (k + 1)).toNat)
      ++ w32 (b2n x.run + 2 * b2n x.waiting) ++ w32 (max x.pos v - v) ++ w32 e.length
      ++ (List.range 7).flatMap fun k => match e[k]? with
        | some f => w32 f.resume.toNat ++ w32 (f.level + 8 * b2n f.inTrap)
        | none => [0, 0]

/-- Section REGISTERS: each register as a read at the boundary gives it, a shadowed one with its live copy after it
(R435). -/
def Inst.recRegs (i : Inst) (v : Nat) : List Nat :=
  recordRegs.flatMap fun o =>
    w32 (i.winValue (.prog 0) v o).toNat ++ if shadowed o then w32 (i.core.live.get windowReset o).toNat else []

/-- Section ICU (R581). -/
def Core.recIcu (c : Core) : List Nat :=
  let latched := loop 64 (fun k m => if c.srcSense k ≠ 0 && tb c.latched k then m ||| 2 ^ k else m) 0
  let bytes := (List.range 64).map fun k => match c.claims.find? fun x => x.src == k with
    | some x => BitVec.ofNat 8 x.depth
    | none => 0xFF
  w64 latched ++ w64 c.servMask ++ (List.range 16).map fun k => field bytes (4 * k) 4

/-- Section TIMING (R581). A tick due at the boundary itself is no part of the checkpoint (R433), and none is 0 vc away: DEDUCED, its
word is PRESCALE + 1, which the range of the item leaves for it. -/
def Core.recTiming (c : Core) (v : Nat) : List Nat :=
  ((List.range 4).flatMap fun k => w32 (match c.timNext.getD k none with
      | some s => if s ≤ v then bits (c.timCtrl k) 31 16 + 1 else s - v
      | none => 0))
    ++ ((List.range 4).flatMap fun k => stamp64 v (c.btimW.getD k 0))
    ++ w32 (b2n c.commit) ++ w32 c.cueEn
    ++ ((List.range 4).flatMap fun k => w32 (c.cueBase.getD k 0)) ++ ((List.range 4).flatMap fun k => w32 (c.cueCur.getD k 0))

/-- A multiplexer's items, given its field (R581). -/
def muxRec (m : Mux) (v : Nat) : List Nat :=
  let j := if m.j < 32 then m.j else 0
  w32 m.cur ++ w32 m.old ++ w32 j ++ w32 (if 0 < j && decide (v ≠ m.cur) then 2 ^ 31 + v else 0)

/-- Section MIXER (R581). DEDUCED: phase and position alike take 64 bits. -/
def Core.recMixer (c : Core) : List Nat :=
  let m := c.mix
  let vs := m.voices.zipIdx
  let bit' (f : Voice → Bool) : Nat := vs.foldl (fun a (v, i) => a + onBit (f v) i) 0
  w32 (bit' (·.prevKey)) ++ w32 (bit' (·.restart))
    ++ (vs.flatMap fun (v, i) =>
      w64 (if c.rbits (O.AUD_V_CTRL + 64 * i) 9 8 = 3 then v.pos else v.phase) ++ w32 v.lfsr ++ w32 v.envCnt)
    ++ i32 m.low.l ++ i32 m.band.l ++ i32 m.high.l ++ i32 m.low.r ++ i32 m.band.r ++ i32 m.high.r
    ++ (m.buses.flatMap fun r => i32 r.g ++ i32 r.g0 ++ i32 r.gt ++ w32 (if r.j < 32 then r.j else 0))
    ++ (vs.flatMap fun (v, i) => muxRec v.route (c.rbits (O.AUD_V_CTRL + 64 * i) 13 12))
    ++ muxRec m.filt (c.rbits O.AUD_FILT_CTRL 1 0) ++ muxRec m.echo (c.rbits O.AUD_ECHO_CTRL 31 31)
    ++ muxRec m.dryMain (c.rbits O.AUD_CTRL 0 0) ++ muxRec m.fxRet (c.rbits O.AUD_CTRL 1 1)
    ++ w32 m.wp ++ w64 m.next

/-- A fixed segment. -/
def segRec (g : SegVal) : List Nat := w32 g.base ++ w32 g.limit ++ w32 g.ctrl

/-- A beat read before the boundary and written at or after it (R581). -/
def beatRec (v : Nat) (b : Option Beat) : List Nat :=
  match b with
  | none => w32 0 ++ w64 0 ++ List.replicate 18 0
  | some b =>
    let d := (b.data.map (·.2)).flatten
    w32 1 ++ stamp64 v b.stamp ++ w32 (((b.data.map (·.1)).head?).getD 0) ++ w32 d.length
      ++ (List.range 16).map fun k => field d (4 * k) 4

/-- Section ENGINES (R581). -/
def Core.recEngines (c : Core) (v : Nat) : List Nat :=
  (c.dma.flatMap fun x =>
    w32 (b2n x.active) ++ stamp64 v x.start ++ w32 x.prio ++ w32 (64 * cdiv x.written 64) ++ segRec x.sv ++ segRec x.dv)
    ++ stamp64 v c.pipeFree ++ w32 (c.pipeLast.getD 0)
    ++ w32 c.blits.length
    ++ (c.blits.flatMap fun j =>
      let d := j.desc
      let b1 := d.passes.1
      [d.ctrl, d.srcSurf, d.srcPos, d.dstSurf, d.dstPos, d.size, d.fill, d.wm, d.scratch]
        ++ stamp64 v (if j.checked then j.start else max (j.stamp + 2) c.blitEnd)
        ++ w32 (b2n (decide (b1 ≤ j.next) && b1 ≠ 0)) ++ w32 (if b1 ≤ j.next then j.next - b1 else j.next) ++ segRec j.scr)
    ++ beatRec v (c.beats.find? (·.dma)) ++ beatRec v (c.beats.find? fun b => !b.dma)

/-- Insert a pair at its place in rising order. -/
def insertPair (x : Nat × Nat) : List (Nat × Nat) → List (Nat × Nat)
  | [] => [x]
  | y :: r => if x.1 < y.1 || (x.1 == y.1 && decide (x.2 < y.2)) then x :: y :: r else y :: insertPair x r

/-- Section EVENTS (R518, R581). -/
def Core.recEvents (c : Core) (v : Nat) : List Nat :=
  let ps := c.pulses.filterMap fun p => p.act.map fun t => (p.stamp, t)
  w32 ps.length ++ (ps.foldr insertPair []).flatMap fun p => w32 p.2 ++ stamp64 v p.1

/-- One section: TYPE, LENGTH, content, padded to 8 bytes (R435). -/
def recSection (ty : Nat) (ws : List Nat) : List Byte :=
  leBytes 4 ty ++ leBytes 4 (4 * ws.length) ++ ws.flatMap (leBytes 4) ++ List.replicate (ws.length % 2 * 4) 0

/-- The core record at the boundary of frame F (R435, R581). -/
def Inst.coreRecord (i : Inst) (frame : Nat) (flop : Bool) : List Byte :=
  let v := frame * i.frameVc
  let inp := (i.core.input ++ List.replicate 64 0).take 64
  recSection 1 (i.recThreads v) ++ recSection 2 (i.recRegs v) ++ recSection 3 i.core.recIcu
    ++ recSection 4 (i.core.recTiming v) ++ recSection 5 i.core.recMixer ++ recSection 6 (i.core.recEngines v)
    ++ recSection 7 ((List.range 16).map fun k => field inp (4 * k) 4)
    ++ if flop then recSection 8 (i.core.recEvents v) else []

/-- The bytes of a block from its listed cells. -/
def cellBytes (size : Nat) (cells : List (Nat × Byte)) : List Byte :=
  (List.range size).map fun k => ((cells.find? fun c => c.1 == k).map (·.2)).getD 0

/-- The extents whose blocks are region 5 of instance n (R434). -/
def State.ownedExtents (s : State) (n : Nat) : List Nat :=
  (s.mem.ext.map (·.1)).filter fun e =>
    let x := s.extEntry e
    x.valid && x.owned && x.owner == n && (x.writable || x.target)

/-- The blocks of regions 2 to 5 (R434, R439): region and block number. -/
def State.stateBlocks (s : State) (n : Nat) : List (Nat × Nat) :=
  ((List.range (s.quota n / 1024)).map fun b => (2, b)) ++ ((List.range (s.workSize n / 4096)).map fun b => (3, b))
    ++ ((List.range 64).map fun b => (4, b))
    ++ (s.ownedExtents n).flatMap fun e => (List.range ((s.extEntry e).leaves * 16)).map fun b => (5, e * 4096 + b)

/-- Put undo blocks back (R436). -/
def State.applyUndo (s : State) (n : Nat) (us : List UndoBlock) : State :=
  us.foldl (fun s u => s.putBlock n u.region u.block u.cells) s

/-- The memories as they stood at checkpoint `back` (R436). -/
def State.memoryAt (s : State) (n back : Nat) : State :=
  ((s.inst n).ring.take (back + 1)).foldl (fun s c => s.applyUndo n c.undo) s

/-- The CRC64 of a block of region 5 whose leaf is not resident (R439): the one kept as the leaf went, which the block still has; a
free value of its entry where none was kept, since the device has never held the block. -/
def State.goneCrc (s : State) (b : Nat) : Nat :=
  match s.mem.crcs.find? fun e => e.1 == b with
  | some e => e.2
  | none => Config.hostBlockCrc b (s.mem.ext.get (fun _ => 0) (b / 4096))

/-- The digest of a core with the memories of a state (R439). -/
def State.digestOf (s : State) (n : Nat) (c : Core) (frame : Nat) : Nat :=
  let i : Inst := { s.inst n with core := c }
  ((s.stateBlocks n).foldl (fun a (r, b) =>
    a + match s.blockCells n r b with
      | some cells => blockCrc r b (cellBytes (regionBlock r) cells)
      | none => s.goneCrc b) (blockCrc 1 0 (i.coreRecord frame (s.threeFlop n)))) % 2 ^ 64

/-- The VRAM quota as the park area holds it, put back (R453). -/
def State.unpark (s : State) (n : Nat) : State :=
  { s with pool := putCells s.pool (s.vramAt n 0) (s.quota n) (cellsIn s.hbm (s.parkBase n) (s.quota n)) }

/-- BLW_DIGEST for checkpoint NEWEST − back; 0 when back ≥ DEPTH (R439, R460). The VRAM of a Parked instance lies in its
park area (R453). -/
def State.digest (s : State) (n back : Nat) : Nat :=
  match (s.inst n).ring[back]? with
  | none => 0
  | some k =>
    let s := if (s.inst n).rung = .parked then s.unpark n else s
    (s.memoryAt n back).digestOf n k.core k.frame

/-- Take checkpoint F: a fresh entry in front of the ring, kept within the share (R433, R434, R438). -/
def State.takeCkpt (s : State) (n frame : Nat) : State :=
  let i := s.inst n
  let c : Ckpt := { frame, core := i.core, hlog := i.hlog }
  let (ring, lost) := match fitRing s.ckptShare (c :: i.ring) with
    | some r => (r, false)
    | none => ([], true)
  let cut := decide (ring.length < 2) && (lost || i.noUndo || !i.ring.isEmpty)
  let i : Inst := { i with ring, noUndo := lost, cut, hlog := [], ckptDone := true }
  s.setInst n (if lost then i.modReg O.BLW_RING fun w => countUp w 31 16 1 else i)

/-- The blit engines and their queue let go of an instance's jobs, which wait for a place anew (R212, R230). -/
def State.dropBlits (s : State) (n : Nat) : State :=
  State.noteJobs (({ s with eng := { s.eng with
      blit := s.eng.blit.filter fun e => e.2.1 != n
      blitQ := s.eng.blitQ.filter fun q => q.1 != n
      blitWait := s.eng.blitWait.filter fun q => q.1 != n } } : State).modCore n fun c =>
    { c with blits := c.blits.map fun j => { j with phase := .waiting, ownCred := false } }) n

/-- Restore checkpoint `back` (R436, R440): the memories, the core, and the ring without the newer entries; their inputs
and host-write logs become replay records, beside those that lie ahead of the checkpoint; an entry of a catch-up whose frame was not
released again keeps the input of its former record. -/
def State.restoreCkpt (s : State) (n back : Nat) : State :=
  let i := s.inst n
  match i.ring[back]? with
  | none => s
  | some k =>
    let known (f : Nat) : Option InputRec := (i.replay.find? fun r => r.frame == f).bind (·.input)
    let gone := (i.ring.take back).map fun c => (⟨c.frame, c.input.or (known c.frame), c.hlog⟩ : Replay)
    let own : Replay := ⟨k.frame, k.input.or (known k.frame), []⟩
    let kept := i.replay.filter fun r => decide (k.frame < r.frame) && !gone.any fun g => g.frame == r.frame
    let s := s.memoryAt n back
    let i := s.inst n
    State.dropBlits (s.setInst n { i with
      core := k.core, hostAt := ({ i with core := k.core } : Inst).livePos, modes := i.modes.filter fun m => decide (m.1 < k.frame)
      ring := { k with undo := [], input := none } :: i.ring.drop (back + 1)
      noUndo := false, cut := false, replay := own :: (gone ++ kept), ckptDone := true, aligned := true
      journal := [], fence := [], jobs := [], rendering := [], hlog := [], expired := false
      released := k.frame }) n

end Sys2Proof.Machine
end

