-- ==== Sys2Proof/Machine/Shelf.lean ====
section
/-! DEFINITION. Instance reset (R79, R313, R336 and the rules of each block), the park area and the shelf image (R453 to
R458), and the reading of a core record (R581). -/
namespace Sys2Proof.Machine

/-- The window offsets that an AUDIO_DEFAULTS entry writes, in its order (R300). -/
def audioDefaultRegs : List Nat := [0x4000, 0x4020, 0x4024, 0x4028, 0x402C, 0x4040, 0x4044, 0x4050, 0x4054, 0x4058]

/-- The registers of an instance after instance reset, before AUDIO_DEFAULTS (R92, R313, R343). INST_RESET_PC keeps its value, and so
do CMP_STATUS, CMP_COMMIT_FRAME and CMP_CLAMP_COUNT: they are not shadowed, and instance reset names the shadowed registers of the
composer alone (R10, R179). -/
def Inst.resetRegs (i : Inst) : Core :=
  let c := [O.INST_RESET_PC, O.CMP_STATUS, O.CMP_COMMIT_FRAME, O.CMP_CLAMP_COUNT].foldl (fun (c : Core) o => c.setReg o (i.core.reg o))
    { regs := [] }
  let c := c.setReg (O.SEG_LIMIT + 16) (BitVec.ofNat 32 (i.adm.work * 1048576 - 1))
  let c := c.setReg (O.SEG_LIMIT + 32) (BitVec.ofNat 32 (i.adm.vram * 16384 - 1))
  c.setReg O.VID_TIMING (timingMax i.adm.cls)

/-- Apply an AUDIO_DEFAULTS entry as writes stamped 0 (R300). -/
def Core.audioDefaults (c : Core) (entry : List Byte) : Core :=
  audioDefaultRegs.zipIdx.foldl (fun c (o, k) =>
    match findReg windowRegs o with
    | none => c
    | some (r, _) =>
      let (w, cl) := r.write (c.reg o) (BitVec.ofNat 32 (field entry (4 * k) 4))
      (c.setReg o w).countClamps o cl) c

/-- The mixer after instance reset: every multiplexer at its field and every gain at its target (R279, R288); N of each bus reads 0
until a sample is computed (R292). -/
def Core.resetMix (c : Core) : Core :=
  let m : MixState := {}
  let echo := c.rbits O.AUD_ECHO_CTRL 31 31
  let fx := c.rbits O.AUD_CTRL 1 1
  let n3 := b2n (fx = 1 && echo = 1)
  let ramp (b n : Nat) : Ramp := let g := gainTarget (c.reg (O.AUD_BUS + 4 * b)).toNat n; { gt := g, g0 := g, j := 0, g := g }
  { c with mix := { m with
      voices := (List.range 16).map fun v => { route := { cur := c.rbits (O.AUD_V_CTRL + 64 * v) 13 12 } }
      buses := [ramp 0 0, ramp 1 0, ramp 2 0, ramp 3 n3]
      filt := { cur := c.rbits O.AUD_FILT_CTRL 1 0 }, echo := { cur := echo }
      dryMain := { cur := c.rbits O.AUD_CTRL 0 0 }, fxRet := { cur := fx } } }

/-- The instance state after instance reset: V = 0, t0 running from INST_RESET_PC (R79, R336). -/
def Inst.resetCore (i : Inst) (audio : List Byte) : Core :=
  let c := i.resetRegs
  let c := if i.adm.audio < audio.length / 64 then c.audioDefaults ((audio.drop (64 * i.adm.audio)).take 64) else c
  let c := c.resetMix
  { c.modThread 0 fun x => { x with run := true, pc := c.reg O.INST_RESET_PC &&& 0xFFFFFFFC } with
    timing := timingMax i.adm.cls, timingIn := timingMax i.adm.cls }

/-- Instance reset of instance n (R79, R257, R266, R279). The rung and the checkpoint ring are the caller's. -/
def State.resetInst (s : State) (n : Nat) : State :=
  let i := s.inst n
  let j : Inst := { i with
    core := i.resetCore s.image.audio, ring := [], ckptDone := true, noUndo := false, cut := false, replay := [], catchUp := none
    rewound := false, hostHeld := [], hlog := [], released := 0, expired := false, journal := [], fence := [], jobs := []
    rendering := [], builds := [], preAudio := [], doneTo := 0, modeCh := false, active := [], aligned := true
    shelfOk := false, vcHi := 0, sampHi := 0, hostAt := 0, modes := [] }
  let s := (s.setInst n (j.resetWhistle.resetFlash)).dropBlits n
  { s with
    hbm := clearRange s.hbm (s.echoBase n) 262144
    eng := { s.eng with cmpQ := s.eng.cmpQ.filter fun q => q.inst != n } }

/-- The park area of an instance: VRAM, then the core record at 0x7_0000 (R453). -/
def State.parkBytes (s : State) (n frame : Nat) : List Byte :=
  let v := s.vramBytes n 0 (s.quota n)
  let r := (s.inst n).coreRecord frame (s.threeFlop n)
  v ++ List.replicate (0x70000 - v.length) 0 ++ r ++ List.replicate (0x10000 - r.length) 0

/-- Bytes of a shelf image (R456). -/
def State.shelfLen (s : State) (n : Nat) : Nat := 4096 + 524288 + s.workSize n + 262144

/-- CLASS_RATES of R233. -/
def classRates (a : Admit) : Nat := a.cls + 4 * b2n a.rate50 + 8 * b2n a.aud32

/-- The shelf image of instance n at the boundary of a frame (R456, R457); `park` is its park area. -/
def State.shelfImage (s : State) (n frame digest : Nat) (park : List Byte) : List Byte :=
  let a := (s.inst n).adm
  let body := park ++ s.workBytes n 0 (s.workSize n) ++ getBytes s.hbm (s.echoBase n) 262144
  let h := leBytes 4 0x464C4853 ++ leBytes 2 1 ++ leBytes 2 n ++ leBytes 8 frame ++ leBytes 1 (classRates a)
    ++ leBytes 1 a.slots ++ leBytes 2 a.vram ++ leBytes 2 a.work ++ leBytes 2 0 ++ leBytes 8 digest
    ++ leBytes 4 (s.shelfLen n) ++ leBytes 4 (crc32 body) ++ List.replicate 20 0
  h ++ leBytes 4 (crc32 h) ++ List.replicate 4032 0 ++ body

/-- The shelf extents of an instance meet R456. -/
def State.shelfOkExtents (s : State) (n : Nat) : Bool :=
  let first := (s.inst n).rbits O.BLW_SHELF 16 0
  let (f, c) := s.span n
  (List.range (cdiv (s.shelfLen n) 0x1000000)).all fun k =>
    let e := first + k
    let x := s.extEntry e
    decide (e < 131072) && x.valid && !x.target && x.owned && x.owner == n && x.writable && x.leaves == 256
      && !(decide (f ≤ e) && decide (e < f + c))

/-- A shelf image meets R458 for an instance. -/
def State.shelfFits (s : State) (n : Nat) (b : List Byte) : Bool :=
  let a := (s.inst n).adm
  field b 0 4 == 0x464C4853 && field b 4 2 == 1 && field b 0x3C 4 == crc32 (b.take 0x3C)
    && field b 0x10 1 == classRates a && field b 0x11 1 == a.slots && field b 0x12 2 == a.vram && field b 0x14 2 == a.work
    && decide (field b 0x20 4 ≤ b.length) && field b 0x24 4 == crc32 ((b.take (field b 0x20 4)).drop 4096)

/-- The sections of a core record: TYPE and the content's words (R435). -/
def recSections : Nat → List Byte → List (Nat × List Nat)
  | 0, _ => []
  | f + 1, b =>
    let ty := field b 0 4
    let len := field b 4 4
    if ty = 0 then [] else
    (ty, (List.range (len / 4)).map fun k => field b (8 + 4 * k) 4) :: recSections f (b.drop (8 + roundUp len 8))

/-- The k-th word of a list. -/
def wordAt (l : List Nat) (k : Nat) : Nat := l.getD k 0
/-- The 64-bit item at word k. -/
def pairAt (l : List Nat) (k : Nat) : Nat := wordAt l k + wordAt l (k + 1) * 2 ^ 32
/-- The stamp at word k, relative to a boundary. -/
def stampAt (v : Nat) (l : List Nat) (k : Nat) : Nat := ((v : Int) + sext 64 (pairAt l k)).toNat

/-- A thread from its 57 words (R581) and the bits that it holds of a 64-bit read (R91, R298). -/
def decThread (v : Nat) (l : List Nat) (dbl : Bool) (vcHi sampHi : Word) : Thread :=
  let w (k : Nat) : Word := BitVec.ofNat 32 (wordAt l k)
  let depth := wordAt l 42
  let frames := (List.range depth).map fun k =>
    ({ resume := w (43 + 2 * k), inTrap := tb (wordAt l (44 + 2 * k)) 3, level := bits (wordAt l (44 + 2 * k)) 2 0 } : IntFrame)
  { g := (List.range 31).foldl (fun g k => g.set zeroAt (k + 1) (w (9 + k))) []
    pc := w 0, run := tb (wordAt l 40) 0, waiting := tb (wordAt l 40) 1, inTrap := tb (wordAt l 2) 0, dblTrap := dbl
    epc := w 3, trapInfo := w 4, trapCause := w 5, trapAddr := w 6, scratch0 := w 7, scratch1 := w 8
    pos := v + wordAt l 41, stack := frames.reverse
    level := 0, vcHi, sampHi }

/-- Registers whose value is held elsewhere in the state (R345, R358, R359, R91). -/
def derivedReg (o : Nat) : Bool :=
  o == 0 || o == 4 || (decide (0x400 ≤ o) && decide (o < 0x800)) || o == 0x1000 || o == 0x100C
    || (decide (0x1010 ≤ o) && decide (o < 0x1020)) || (decide (0x2000 ≤ o) && decide (o ≤ 0x2010)) || o == 0x2018
    || (decide (0x2820 ≤ o) && decide (o < 0x2830)) || o == 0x400C || o == 0x4010
    || (decide (0x4100 ≤ o) && decide (o < 0x4500) && o % 64 == 0x1C)

/-- The part of a register's word that is not held elsewhere. -/
def storedPart (o : Nat) (w : Word) : Word :=
  if 0x1040 ≤ o && decide (o < 0x1050) then w &&& 7
  else if 0x1800 ≤ o && decide (o < 0x1880) && o % 32 = 0x10 then wset w 0 0 0
  else if o = O.CMP_STATUS then wset w 15 15 0
  else if o = O.BLT_STATUS then wset w 0 0 0
  else if 0x4020 ≤ o && decide (o < 0x4030) then wset w 20 16 0
  else w

/-- REGISTERS of a record put into a core (R581). -/
def Core.decRegs (c : Core) (l : List Nat) : Core :=
  (recordRegs.foldl (fun (st : Core × List Nat) o =>
    let w : Word := BitVec.ofNat 32 (wordAt st.2 0)
    let c := if derivedReg o then st.1 else st.1.setReg o (storedPart o w)
    if shadowed o then
      ({ c with live := c.live.set windowReset o (BitVec.ofNat 32 (wordAt st.2 1)) }, st.2.drop 2)
    else (c, st.2.drop 1)) (c, l)).1

/-- The word that REGISTERS holds for an offset. -/
def recReg (l : List Nat) (off : Nat) : Word :=
  let k := (recordRegs.takeWhile (· != off)).foldl (fun a o => a + 1 + b2n (shadowed o)) 0
  BitVec.ofNat 32 (wordAt l k)

/-- A multiplexer from its items. -/
def decMux (l : List Nat) (k : Nat) : Mux := ⟨wordAt l k, wordAt l (k + 1), wordAt l (k + 2)⟩

/-- MIXER of a record (R581), with N of each bus as REGISTERS shows it (R292). The samples of a bypass block under way are not in the record, and are taken as zeros. -/
def decMixer (l : List Nat) (type : Nat → Nat) (counts : List Nat) : MixState :=
  let sg (k : Nat) : Int := sext 32 (wordAt l k)
  { voices := (List.range 16).map fun i =>
      let p := pairAt l (2 + 4 * i)
      { phase := if type i = 3 then 0 else p, pos := if type i = 3 then p else 0, lfsr := wordAt l (4 + 4 * i)
        envCnt := wordAt l (5 + 4 * i), prevKey := tb (wordAt l 0) i, restart := tb (wordAt l 1) i
        route := decMux l (88 + 4 * i) }
    low := ⟨sg 66, sg 69⟩, band := ⟨sg 67, sg 70⟩, high := ⟨sg 68, sg 71⟩
    buses := (List.range 4).map fun b =>
      { g := sg (72 + 4 * b), g0 := sg (73 + 4 * b), gt := sg (74 + 4 * b), j := wordAt l (75 + 4 * b) }
    filt := decMux l 152, echo := decMux l 156, dryMain := decMux l 160, fxRet := decMux l 164
    counts, wp := wordAt l 168, next := pairAt l 169
    bypBlk := List.replicate (pairAt l 169 % 32) {} }

/-- A fixed segment at word k. -/
def decSeg (l : List Nat) (k : Nat) : SegVal := ⟨wordAt l k, wordAt l (k + 1), wordAt l (k + 2)⟩

/-- The bytes of a beat from its 21 words, with its stamp and first destination offset; none where no beat is held (R581). -/
def decBeat (v : Nat) (l : List Nat) (k : Nat) : Option (Nat × Nat × List Byte) :=
  if wordAt l k = 0 then none else
  some (stampAt v l (k + 1), wordAt l (k + 3), ((List.range 16).flatMap fun j => leBytes 4 (wordAt l (k + 5 + j))).take (wordAt l (k + 4)))

/-- A blit job from its 17 words at word o (R581): `seq` is its number. -/
def decJob (v : Nat) (l : List Nat) (o : Nat) (first : Bool) (seq : Nat) : BlitJob :=
  let w (j : Nat) : Nat := wordAt l (o + j)
  let d : BlitDesc := ⟨w 0, w 1, w 2, w 3, w 4, w 5, w 6, w 7, w 8⟩
  let st := stampAt v l (o + 9)
  let on := first && decide (st < v)
  { seq, desc := d, stamp := st - 2, start := if on then st else 0, checked := on
    next := w 12 + (if w 11 = 1 then d.passes.1 else 0), scr := decSeg l (o + 13) }

/-- The blitter of a record (R581): the beat read last, held at the places of its pixels (R217 to R224), with the watermark and the
end that follow it. A job whose beats are all read while none is held has failed in its last read; the record does not hold the
result, a free value. -/
def Core.decBlits (c : Core) (cls v : Nat) (l : List Nat) (bo : Nat) (blits : List BlitJob) (u : Word) : Core :=
  let c := { c with blits }
  match blits, decBeat v l bo with
  | j :: _, some (stamp, _, data) =>
    let b := { j with next := j.next - 1 }
    let px := b.pixels
    let c := { c with beats := c.beats ++ [⟨stamp, false, j.seq, match px with | (_, t, _) :: _ => t | [] => 3,
      px.zipIdx.map fun (p, k) => (p.2.2, (data.drop (k * j.desc.b)).take j.desc.b)⟩] }
    let c := match b.wmSets cls (stamp - 1) with
      | some m => c.addMicro (keyOf stamp 1 1) (.blitWm m)
      | none => c
    if j.beats ≤ j.next then c.addMicro (keyOf stamp 1 1) (.blitEnd 0) else c
  | j :: _, none =>
    if !j.checked then c.addMicro (keyOf (j.stamp + 2) 1 1) .blitPre
    else if j.beats ≤ j.next then c.addMicro (keyOf v 1 1) (.blitEnd (3 + 2 * (u.toNat % 2)))
    else c
  | [], _ => c

/-- The DMA pipe of a record (R581): what the record does not hold of a transfer follows from the channel's registers, which
still count the beat read last (R385). Where that beat was read before the boundary, writes at it or after, and is not held, it has
failed (R389); its result, side and address are not in the record, and are free values. -/
def Core.decDma (c : Core) (v : Nat) (l : List Nat) (bo : Nat) (u : Word) : Core :=
  let pend := wordAt l 51
  let free := stampAt v l 48
  let held := decBeat v l bo
  let late (k : Nat) : Bool := k == pend && decide (v ≤ free) && tb (wordAt l (12 * k)) 0 && decide (0 < wordAt l (12 * k + 4))
  let xfer (k : Nat) : DmaXfer :=
    let o := 12 * k
    let ctrl := (c.reg (O.DMA_CTRL + 32 * k)).toNat
    let start := stampAt v l (o + 1)
    let next := wordAt l (o + 4)
    let left := c.rbits (O.DMA_COUNT + 32 * k) 24 0
    let count := (if late k then next - 64 else next) + left
    { active := tb (wordAt l o) 0, start, prio := wordAt l (o + 3), count
      src := (c.reg (O.DMA_SRC + 32 * k)).toNat, dst := (c.reg (O.DMA_DST + 32 * k)).toNat
      srcSeg := bits ctrl 10 8, dstSeg := bits ctrl 14 12, checked := decide (start + 2 < v)
      sv := decSeg l (o + 5), dv := decSeg l (o + 8), written := min next count
      next := if late k && held.isNone then cdiv count 64 else next / 64 }
  let c := { c with dma := (List.range 4).map xfer, pipeFree := free, pipeLast := some pend }
  let c := loop 4 (fun k c =>
    let x := c.dma.getD k {}
    if x.active && !x.checked then c.addMicro (keyOf (x.start + 2) 1 1) (.dmaPre k) else c) c
  if !late pend then c else
  let x := c.dma.getD pend {}
  let o := wordAt l (12 * pend + 4) - 64
  let c := c.addMicro (keyOf free 1 1) (.dmaCount pend (min 64 (x.count - o)))
  match held with
  | some (stamp, a, data) =>
    let c := { c with beats := c.beats ++ [⟨stamp, true, pend, x.dv.space, [(a, data)]⟩] }
    if x.count ≤ x.written then c.addMicro (keyOf free 1 1) (.dmaEnd pend 0 0 0) else c
  | none =>
    let side := u.toNat / 2 % 2
    c.addMicro (keyOf free 1 1) (.dmaEnd pend (6 + u.toNat % 2) side ((if side = 0 then x.src else x.dst) + o))

/-- ENGINES of a record (R581); `u` numbers the free values of what it does not hold. -/
def Core.decEngines (c : Core) (cls v : Nat) (l : List Nat) (u : Nat) : Core :=
  let nb := wordAt l 52
  let bo := 53 + 17 * nb
  let blits := (List.range nb).map fun k =>
    decJob v l (53 + 17 * k) (k == 0) ((c.rbits O.BLT_SUBMIT_SEQ 15 0 + 65536 - (nb - 1 - k)) % 65536)
  (c.decDma v l bo (Config.freeWord u)).decBlits cls v l (bo + 21) blits (Config.freeWord (u + 1))

/-- The instance state of a core record at the boundary of a frame (R435, R581). The record names no thread for a claim:
the lowest target takes it; the effects of a stamp before the boundary that fall after it are not in the record. It holds the bits
of R91 and R298 for t0 alone: those of the other threads are free values, numbered from `u`. The timing mode of the last frame
streamed is the device's own knowledge (R120, R234). -/
def Inst.decodeCore (i : Inst) (frame : Nat) (rec' : List Byte) (flop : Bool) (u : Nat) : Core :=
  let v := frame * i.frameVc
  let secs := recSections 8 rec'
  let sec (t : Nat) : List Nat := ((secs.find? fun x => x.1 == t).map (·.2)).getD []
  let th := sec 1; let rg := sec 2; let icu := sec 3; let tm := sec 4
  let c : Core := ({} : Core).decRegs rg
  let dbl := wbits (recReg rg 4) 11 8
  let c := { c with threads := (List.range 4).map fun t =>
    if t < i.adm.slots then
      let hi (o k : Nat) : Word := if t = 0 then recReg rg o else Config.freeWord (u + 2 * t + k)
      let x := decThread v ((th.drop (57 * t)).take 57) (tb dbl t) (hi 0x2010 0) (hi 0x4010 1)
      { x with level := wbits (recReg rg (O.ICU_T_CTRL + 4 * t)) 14 12 }
    else {} }
  let depthOf (k : Nat) : Nat := bits (wordAt icu (4 + k / 4)) (8 * (k % 4) + 7) (8 * (k % 4))
  let claims := (List.range 64).filterMap fun k =>
    if tb (pairAt icu 2) k then
      some (⟨k, ((List.range 4).find? fun t => c.srcTargets k t).getD 0, depthOf k⟩ : Claim)
    else none
  let tim (k : Nat) : Option Nat :=
    if wordAt tm k = 0 then none else some (if wordAt tm k = bits (c.timCtrl k) 31 16 + 1 then v else v + wordAt tm k)
  let ts := recReg rg O.VID_TIMING_STATUS
  let mode := wset ts 6 6 0
  let evs := sec 8
  let c := { c with
    timing := if i.core.timing = 0 then mode else i.core.timing, timingIn := mode, beam := if frame = 0 then 0 else 3
    latched := pairAt icu 0, claims, timNext := [tim 0, tim 1, tim 2, tim 3]
    btimW := [stampAt v tm 4, stampAt v tm 6, stampAt v tm 8, stampAt v tm 10]
    commit := tb (wordAt tm 12) 0, cueEn := wordAt tm 13, cueBase := (tm.drop 14).take 4, cueCur := (tm.drop 18).take 4
    mix := decMixer (sec 5) (fun k => c.rbits (O.AUD_V_CTRL + 64 * k) 9 8)
      ((List.range 4).map fun b => wbits (recReg rg (O.AUD_BUS + 4 * b)) 20 16)
    pulses := if flop then (List.range (wordAt evs 0)).map fun k => ⟨stampAt v evs (2 + 3 * k), 0, some (wordAt evs (1 + 3 * k))⟩ else []
    input := (sec 7).flatMap (leBytes 4), nextLine := frame * classLines i.adm.cls, nextLtch := frame, frame
    lastKey := keyOf v 0 0 - 1 }
  let c := c.decEngines i.adm.cls v (sec 6) u
  { c with signals := c.signalsNow }

end Sys2Proof.Machine
end

