-- ==== Sys2Proof/Machine/Ladder.lean ====
section
/-! DEFINITION. The ladder of rungs (14_checkpoints_ladder.md, R440 to R460): how a rung command is decided and started,
the moves between rungs, the rewind, and what the window of an instance shows of them. -/
namespace Sys2Proof.Machine

/-- The RUNG code of a rung (R448). -/
def rungCode : Rung → Nat
  | .playing => 0 | .held => 1 | .benched => 2 | .parked => 3 | .shelved => 4

/-- The rung that a command aims at (R450). -/
def opTarget (op : Nat) : Option Rung :=
  match op with
  | 1 | 2 => some .held
  | 3 => some .playing
  | 4 => some .benched
  | 5 => some .parked
  | 6 => some .shelved
  | _ => none

/-- The rungs from which a command is allowed (R450). -/
def opAllowed (op : Nat) (r : Rung) : Bool :=
  match op with
  | 1 | 2 => r == .playing
  | 3 | 4 | 5 | 6 => true
  | 7 => r == .playing || r == .held
  | 8 => r != .playing
  | 9 => r == .shelved
  | _ => false

/-- How a rung command is decided on arrival: its result, or none where it starts (R451). -/
def State.rungDecide (s : State) (n op back : Nat) : Option Nat :=
  let i := s.inst n
  let down := op = 4 || op = 5 || op = 6
  if i.adm.state ≠ 2 then some 6
  else if i.running.isSome || (s.op.isSome && i.rung == .shelved && (op = 3 || op = 4 || op = 5)) then some 1
  else if i.faultHeld && !(op = 8 || ((op = 3 || op = 7) && i.rung == .held)) then some 2
  else if opTarget op = some i.rung then some 0
  else if !opAllowed op i.rung then some 2
  else if down && i.catchUp.isSome then some 8
  else if down && i.rung == .held && !i.aligned then some 3
  else if op = 7 && decide (i.ring.length ≤ back) then some 4
  else none

/-- Rung commands that run on the chip (R449). -/
def State.rungRunning (s : State) : Nat :=
  (s.insts.filter fun e => match e.2.running with | some c => !c.queued | none => false).length

/-- A rung command that arrives waits behind 16 that run, and behind those that wait already (R449). -/
def State.rungWaits (s : State) : Bool :=
  decide (16 ≤ s.rungRunning) || s.insts.any fun e => match e.2.running with | some c => c.queued | none => false

/-- A rung command arrives through BLW_CMD, or with the TAG of a command ring entry (R449, R451, R477). -/
def State.rungCmd (s : State) (n op back : Nat) (wait : Bool) (tag : Option Nat) : State :=
  let c : RungCmd := { op, back, wait, tag, queued := s.rungWaits, seq := s.host.orders }
  match s.rungDecide n op back with
  | some r =>
    if tag.isSome then (s.modInst n fun i => { i with running := some { c with queued := false } }).endCmd n r
    else s.modInst n fun i => i.setReg O.BLW_CMD_STATUS (BitVec.ofNat 32 (op * 16 + r))
  | none =>
    ({ s with host := { s.host with orders := s.host.orders + 1 } } : State).modInst n fun i => { i with running := some c }

/-- A host write of BLW_CMD that acts, the chip being awake (R460, R506, R534). -/
def State.blwCmd (s : State) (n : Nat) (v : Word) : State :=
  let op := wbits v 31 28
  if op = 0 || s.chipFault then s
  else if 9 < op then s.modInst n fun i => i.modReg O.BLW_CLAMP_COUNT fun w => countUp w 31 0 1
  else s.rungCmd n op (wbits v 3 0) (tb v.toNat 4) none

/-- The rung command of instance n, if it is `op`, has started and may act (R449, R506). -/
def State.rungRuns (s : State) (n op : Nat) : Option RungCmd :=
  match (s.inst n).running with
  | some c => if c.op = op && !c.queued && c.ended.isNone && s.awake then some c else none
  | none => none

/-- The first queued command starts when fewer than 16 run (R449). -/
def State.rungDequeue (s : State) (n : Nat) : State :=
  match (s.inst n).running with
  | some c =>
    let first := s.insts.all fun e => match e.2.running with
      | some d => !d.queued || decide (c.seq ≤ d.seq)
      | none => true
    if c.queued && first && decide (s.rungRunning < 16) then
      s.modInst n fun i => { i with running := some { c with queued := false } }
    else s
  | none => s

/-- The instance stops at a boundary, Held (R452); the host position stays where it is (R580). -/
def Inst.stopAt (i : Inst) : Inst := { i with rung := .held, aligned := true, whDue := [], hostAt := i.hostPos }

/-- Entry to Playing (R108, R257, R459); the effects whose turn it is follow. -/
def State.enterPlaying (s : State) (n : Nat) : State :=
  (s.modInst n fun i =>
    ({ i with rung := .playing, faultHeld := false, anchor := some (s.wall, i.released), reanchor := false,
              expired := false } : Inst).resetWhistle).settle n

/-- The slots of packets that no mover has begun are given up with the instance's last frames (R453): they count in STR_DROPPED, and not
in DROPPED and GAP of the next packet moved, of which R233 and R453 are silent (DESIGN CHOICE, log entry 66). One that a monitor output shows keeps its slot until the output lets it go. -/
def State.dropPackets (s : State) (n : Nat) (count : Bool) (from' : Nat) : State :=
  let i := s.inst n
  let gone := i.packets.filter fun p => !p.moved && decide (from' ≤ p.frame)
  let kept := i.packets.filterMap fun p =>
    if !p.moved && decide (from' ≤ p.frame) then (if s.slotHeld n p.slot then some { p with moved := true } else none) else some p
  s.setInst n (({ i with packets := kept } : Inst).modReg O.STR_DROPPED fun w => if count then countUp w 31 0 gone.length else w)

/-- Into Benched (R453): the core record over the composer-state part of the composer item. -/
def State.intoBenched (s : State) (n : Nat) : State :=
  let i := s.inst n
  let r := i.coreRecord i.released (s.threeFlop n)
  let a := 0x6880000 + n * 0x8000 + 0x6000
  { (s.eccWrite .pool a 8192) with
    pool := putBytes (clearRange s.pool a 8192) a r
    insts := s.insts.set (fun _ => {}) n { i with rung := .benched, replay := [] } }

/-- Into Parked (R453): VRAM and core record to the park area, the granules zeroed. -/
def State.intoParked (s : State) (n : Nat) : State :=
  let b := s.parkBytes n (s.inst n).released
  let a := s.parkBase n
  let v := s.vramAt n 0
  let s := s.readChecked n .pool v (s.quota n)
  let s := (s.eccWrite .hbm a b.length).eccWrite .pool v (s.quota n)
  ({ s with hbm := putBytes s.hbm a b, pool := clearRange s.pool v (s.quota n) } : State).modInst n fun i =>
    { i with rung := .parked }

/-- Write the bytes of a shelf image to the extents of the shelf (R456). -/
def State.sendShelf (s : State) (n : Nat) (img : List Byte) : State :=
  let first := (s.inst n).rbits O.BLW_SHELF 16 0
  loop (cdiv img.length 0x1000000) (fun k s =>
    let e := first + k
    (s.dropExtent e true).send (.write 0 (s.extEntry e).addr ((img.drop (k * 0x1000000)).take 0x1000000))) s

/-- Into Shelved (R453, R456): the shelf image is written, and the ring is emptied. -/
def State.intoShelved (s : State) (n : Nat) : State :=
  let i := s.inst n
  let d := s.digest n 0
  let s := ((s.readChecked n .hbm (s.parkBase n) 524288).readChecked n .hbm i.adm.workB (s.workSize n)).readChecked n .hbm (s.echoBase n)
    262144
  let s := (s.dropPackets n true 0).flushOwned n
  let s := s.sendShelf n (s.shelfImage n i.released d (getBytes s.hbm (s.parkBase n) 524288))
  s.modInst n fun i => { i with rung := .shelved, shelfOk := true, ring := [], noUndo := false, cut := false, replay := [] }

/-- From Shelved (R453, R458): the shelf image is read and restored, or the instance leaves from instance reset. The error
is the command's result. A core record that is the one of the state that the instance was shelved with gives that state back; of
another, `Inst.decodeCore` gives what it holds. An image that the host's memory cuts short is a failed read. -/
def State.fromShelved (s : State) (n : Nat) (shelf : Option (List Byte)) : Except Nat State :=
  let i := s.inst n
  if i.shelfOk then
    if !s.shelfOkExtents n then .error 5
    else match shelf with
      | none => .error 7
      | some b =>
        if b.length < s.shelfLen n then .error 7 else
        if !s.shelfFits n b then .error 5 else
        let frame := field b 8 8
        let park := (b.drop 4096).take 524288
        let w := s.workSize n
        let a := i.adm.workB
        let s := ((s.eccWrite .hbm (s.parkBase n) 524288).eccWrite .hbm a w).eccWrite .hbm (s.echoBase n) 262144
        let h := putBytes s.hbm (s.parkBase n) park
        let h := putBytes h a ((b.drop 528384).take w)
        let h := putBytes h (s.echoBase n) ((b.drop (528384 + w)).take 262144)
        let r := park.drop 0x70000
        let own := i.coreRecord frame (s.threeFlop n)
        let core := if r.take own.length = own then i.core else i.decodeCore frame r (s.threeFlop n) s.free
        let s := ({ s with hbm := h, free := s.free + 8 } : State).setInst n { i with
          core, hostAt := ({ i with core } : Inst).livePos, modes := [], released := frame, doneTo := frame, rung := .parked, shelfOk := false, aligned := true
          journal := [], fence := [], jobs := [], rendering := [], builds := [], preAudio := [], hostHeld := [], hlog := []
          replay := [], catchUp := none, active := [], modeCh := false, rewound := false }
        .ok ((s.dropBlits n).takeCkpt n frame)
  else
    let s := s.resetInst n
    let s : State := { s with hbm := putBytes s.hbm (s.parkBase n) (s.parkBytes n 0) }
    .ok ((s.modInst n fun i => { i with rung := .parked }).takeCkpt n 0)

/-- From Parked (R453): VRAM comes back to its granules. -/
def State.fromParked (s : State) (n : Nat) : State :=
  let s := s.readChecked n .hbm (s.parkBase n) 524288
  (({ (s.eccWrite .pool (s.vramAt n 0) (s.quota n)) with pool := (s.unpark n).pool } : State)).modInst n fun i =>
    { i with rung := .benched }

/-- From Benched (R18, R450, R453): the instance takes slots; a RESET below Held left no checkpoint of its boundary, which is
taken here. -/
def State.fromBenched (s : State) (n : Nat) : State :=
  let p := s.placeFor n
  let s := s.modInst n fun i => { i with rung := .held, place := p }
  if (s.inst n).ckptDone then s else s.takeCkpt n (s.inst n).released

/-- Raise instance n to a rung, step by step (R453). -/
def State.raiseTo (s : State) (n : Nat) (target : Rung) (shelf : Option (List Byte)) : Except Nat State :=
  let t := rungCode target
  let one (s : State) : Except Nat State :=
    if (s.inst n).rung = .shelved && t < 4 then s.fromShelved n shelf else .ok s
  match one s with
  | .error r => .error r
  | .ok s =>
    let s := if (s.inst n).rung = .parked && t < 3 then s.fromParked n else s
    let s := if (s.inst n).rung = .benched && t < 2 then s.fromBenched n else s
    .ok (if (s.inst n).rung = .held && t = 0 then s.enterPlaying n else s)

/-- Lower instance n to a rung, step by step (R453). A failure of the shelf leaves it on the rung it has reached. -/
def State.lowerTo (s : State) (n : Nat) (target : Rung) : State × Nat :=
  let t := rungCode target
  let s := if (s.inst n).rung = .playing && 1 ≤ t then s.modInst n Inst.stopAt else s
  let s := if (s.inst n).rung = .held && 2 ≤ t then s.intoBenched n else s
  let s := if (s.inst n).rung = .benched && 3 ≤ t then s.intoParked n else s
  if (s.inst n).rung = .parked && t = 4 then
    if !s.shelfOkExtents n then (s, 5)
    else (s.intoShelved n, 0)
  else (s, 0)

/-- A move of command `op` to its target rung, up or down, once the instance may make it (R450 to R456). A move from Playing
waits for rest at the next boundary, one that takes slots for a free place (R18, R528), and one that reads or writes a shelf for
the PF's traffic and for a mover channel (R391, R466). -/
def State.rungMove (s : State) (n op : Nat) (target : Rung) (shelf : Option (List Byte)) : State :=
  match s.rungRuns n op with
  | none => s
  | some c =>
    let i := s.inst n
    if i.rung = .playing && !i.atRest then s
    else if rungCode target < 2 && decide (2 ≤ rungCode i.rung) && (s.placeFor n).isNone then s
    else if (target = .shelved || (i.rung = .shelved && i.shelfOk)) && (!s.pfTraffic || !s.workTurn c.seq) then s
    else if rungCode target < rungCode i.rung then
      match s.raiseTo n target shelf with
      | .ok s => s.endCmd n 0
      | .error r => s.endCmd n r
    else
      let (s, r) := s.lowerTo n target
      s.endCmd n r

/-- HOLD (R450, R452): Held at the next boundary that the instance reaches. -/
def State.ladderHold (s : State) (n : Nat) : State :=
  match s.rungRuns n 1 with
  | none => s
  | some _ => if (s.inst n).rung = .playing && (s.inst n).atRest then (s.modInst n Inst.stopAt).endCmd n 0 else s

/-- HOLD_NOW (R452): each thread stops at its next word boundary. -/
def State.ladderHoldNow (s : State) (n : Nat) : State :=
  match s.rungRuns n 2 with
  | none => s
  | some _ => if (s.inst n).rung = .playing then (s.modInst n Inst.stopNow).endCmd n 0 else s

/-- Held input packets that name frames below a number are dropped with SUPERSEDED (R475). -/
def State.dropInputs (s : State) (n below : Nat) : State :=
  let i := s.inst n
  let s := s.setInst n { i with held := i.held.filter fun h => decide (below ≤ h.frame) }
  (i.held.filter fun h => decide (h.frame < below)).foldl (fun s h => s.inputStatus n 2 h.data) s

/-- The queues of the compressors without an instance's lines. -/
def State.dropLines (s : State) (n : Nat) : State :=
  { s with eng := { s.eng with cmpQ := s.eng.cmpQ.filter fun q => q.inst != n } }

/-- The leaf that a restore of checkpoint NEWEST − back waits for: one whose undo block has no frame to go to (R424, R436). -/
def State.undoLeaf (s : State) (n back : Nat) : Option (Nat × Nat) :=
  ((s.inst n).ring.take (back + 1)).findSome? fun k => k.undo.findSome? fun u =>
    match s.blockAt n u.region u.block with
    | .leaf e l _ => if (s.leaf? e l).isNone then some (e, l) else none
    | _ => none

/-- REWIND (R440): its threads stand since it started, and once the lines in flight have finished, the packet under construction and the later packets that no mover
has begun are discarded, and the instance is restored. -/
def State.ladderRewind (s : State) (n : Nat) : State :=
  match s.rungRuns n 7 with
  | none => s
  | some c =>
    let i := s.inst n
    if !i.jobs.isEmpty || !i.rendering.isEmpty || (s.undoLeaf n c.back).isSome then s else
    match i.ring[0]?, i.ring[c.back]? with
    | some top, some k =>
      let s := (s.dropLines n).dropPackets n false k.frame
      let s := s.restoreCkpt n c.back
      let s := s.modInst n fun i =>
        { i with builds := [], preAudio := [], doneTo := k.frame, faultHeld := false, rewound := true, whDue := []
                 modeCh := false, active := i.active.filter fun f => decide (f < k.frame)
                 catchUp := if k.frame < top.frame then some ⟨top.frame, c.wait⟩ else none }
      (s.dropInputs n top.frame).endCmd n 0
    | _, _ => s.endCmd n 4

/-- RESET (R450, R475): instance reset on the present rung; at Held the ring holds the reset state, below Held it is
empty. -/
def State.ladderReset (s : State) (n : Nat) : State :=
  match s.rungRuns n 8 with
  | none => s
  | some _ =>
    let r := (s.inst n).rung
    let s := (s.resetInst n).modInst n fun i => { i with faultHeld := false }
    let s := if r = .held then s.takeCkpt n 0 else s.modInst n fun i => { i with ckptDone := r == .shelved }
    let s := if r = .parked then ({ s with hbm := putBytes s.hbm (s.parkBase n + 0x70000) ((s.inst n).coreRecord 0 (s.threeFlop n)) } : State)
      else s
    (s.dropInputs n (2 ^ 64)).endCmd n 0

/-- ADOPT (R450). -/
def State.ladderAdopt (s : State) (n : Nat) : State :=
  match s.rungRuns n 9 with
  | none => s
  | some _ => (s.modInst n fun i => { i with shelfOk := true }).endCmd n 0

end Sys2Proof.Machine
end

