-- ==== Sys2Proof/Machine/HostWin.lean ====
section
/-! DEFINITION. The window of an instance as the host reads and writes it (R13, R62, R105, R251, R341, R347, R432, R580), and an
access of a window register by any path. -/
namespace Sys2Proof.Machine

/-- A read of the Bellows block (R460). -/
def State.blwValue (s : State) (n off : Nat) : Word :=
  let i := s.inst n
  let w := i.reg off
  let newest := (i.ring.head?.map (·.frame)).getD 0
  if off = O.BLW_CMD_STATUS then
    match i.running with
    | some c => wset w 31 30 (if c.queued then 1 else 2)
    | none => w
  else if off = O.BLW_RUNG then
    BitVec.ofNat 32 (64 * b2n i.faultHeld + 32 * b2n i.shelfOk + 16 * b2n (i.catchUp.isSome)
      + 8 * b2n (i.rung != .playing && i.aligned) + rungCode i.rung)
  else if off = O.BLW_RING then wset w 4 0 i.ring.length
  else if off = O.BLW_NEWEST_LO then BitVec.ofNat 32 newest
  else if off = O.BLW_NEWEST_HI then BitVec.ofNat 32 (newest / 2 ^ 32)
  else if off = O.BLW_DIGEST_LO then BitVec.ofNat 32 (s.digest n (i.rbits O.BLW_SEL 3 0))
  else if off = O.BLW_DIGEST_HI then BitVec.ofNat 32 (s.digest n (i.rbits O.BLW_SEL 3 0) / 2 ^ 32)
  else w

/-- A read of the stream block (R252). -/
def State.strValue (s : State) (n off : Nat) : Word :=
  let i := s.inst n
  if off = O.STR_STATUS then wset (wset (wset (i.reg off) 31 31 (b2n i.ringWaits)) 26 24 i.usedSlots.length) 3 3 (b2n i.flashOn) else i.reg off

/-- Clear the RC fields of a register of the Bellows or stream block that has been read (R5). -/
def Inst.readRc (i : Inst) (off : Nat) : Inst :=
  match findReg windowRegs off with
  | some (r, _) => i.modReg off r.readClear
  | none => i

/-- A host read of offset `off` of instance n's window: the value, and the state after it. BLW_CMD_STATUS of an instance that is absent
or clamped shows the newest ended command, one of an earlier admission too, where R62 gives 0 by R4 (DESIGN CHOICE, log entry 66: R432
and R460 keep that result). -/
def State.hostWinRead (s : State) (n off : Nat) : Nat × State :=
  let i := s.inst n
  let block := decide (0x5000 ≤ off) && decide (off < 0x6000)
  if i.adm.state ≠ 2 then
    (if off = O.INST_PRESENCE then (presenceWord i.adm).toNat
      else if off = O.BLW_RUNG then 7
      else if off = O.BLW_CMD_STATUS then (i.reg off).toNat else 0, s)
  else if (findReg windowRegs off).isNone then (0, s)
  else if block then ((s.blwValue n off).toNat, s.modInst n fun i => i.readRc off)
  else if 0x7000 ≤ off then ((s.strValue n off).toNat, s.modInst n fun i => i.readRc off)
  else if off = O.ICU_CLAIM then (0, s)
  else if 0x400 ≤ off && decide (off < 0x800) && decide (2 ≤ rungCode i.rung) then (0, s)
  else
    let v := i.winValue .host i.hostPos off
    let s := if off = O.VID_VC_LO then s.setInst n (i.holdHi .host false i.hostPos)
      else if off = O.AUD_SAMPLE_LO then s.setInst n (i.holdHi .host true (i.sampleAt i.hostPos))
      else s.modCore n fun c => c.readRc off
    (v.toNat, s)

/-- A host write of the Bellows or stream block, whatever the rung (R251, R432); a fault packet that waits for a slot sees
DROP_OLDEST as written (R237, R250). -/
def State.blockWrite (s : State) (n off : Nat) (v : Word) : State :=
  if off = O.BLW_CMD then s.blwCmd n v
  else match findReg windowRegs off with
    | none => s
    | some (r, _) =>
      let i := s.inst n
      let (w, k) := r.write (i.reg off) v
      (s.setInst n ((i.setReg off w).modReg O.BLW_CLAMP_COUNT fun x => if off < 0x6000 then countUp x 31 0 k else x)).fillFault n

/-- A host write of offset `off` of instance n's window. While the instance is Playing it is held for the next frame
boundary (R105, R212, R340, R347); the INST_T_ registers follow R341. -/
def State.hostWinWrite (s : State) (n off : Nat) (v : Word) : State :=
  let i := s.inst n
  if i.adm.state ≠ 2 then (if off = O.BLW_CMD && decide (wbits v 31 28 ≤ 9) then s.blwCmd n v else s)
  else if (findReg windowRegs off).isNone then s
  else if decide (0x5000 ≤ off) && decide (off < 0x6000) || decide (0x7000 ≤ off) then s.blockWrite n off v
  else if i.rung = .playing && !(decide (0x400 ≤ off) && decide (off < 0x800)) then
    s.setInst n { i with hostHeld := i.hostHeld ++ [⟨off, v⟩] }
  else s.winApply n .host i.hostPos off v

/-- The registers of instance n's window as the register mirror holds them: the accesses to it since are applied in order (R505). -/
def State.winView (s : State) (n : Nat) : State :=
  s.power.mirrorOps.foldl (fun s o => match o with
    | .write _ (.win m off) 4 v => if m = n && off % 4 = 0 then s.hostWinWrite n off (BitVec.ofNat 32 v) else s
    | .read _ (.win m off) 4 => if m = n && off % 4 = 0 then (s.hostWinRead n off).2 else s
    | _ => s) s

/-- A write of a window register by a path: a thread's next word stores it, or the host writes it. -/
def State.winRow (s : State) (p : Path) (n off : Nat) (v : Word) : State :=
  match p with
  | .prog t => s.storeIo n t off v
  | .mgt _ => s
  | p => s.hostWrite p (.win n off) 4 v.toNat fun s => s.hostWinWrite n off v

/-- A read of a window register by a path. -/
def State.winReadRow (s : State) (p : Path) (n off : Nat) : State :=
  match p with
  | .prog t => s.loadIo n t off
  | .mgt _ => s
  | p => s.hostRead p (.win n off) 4 (fun s => s.winView n) fun s => s.hostWinRead n off

end Sys2Proof.Machine
end

