-- ==== Sys2Proof/Machine/Units.lean ====
section
/-! DEFINITION. The units of the device and their service: the audit log (02_serfer_images.md, R76, R77), audit cores and the
retirement of units (01_architecture.md, R19 to R22; 17_safety.md, R526 to R528). -/
namespace Sys2Proof.Machine

/-- The bytes of an audit log entry before its CRC (R77). -/
def LogEntry.body (e : LogEntry) : List Byte :=
  leBytes 8 e.seq ++ leBytes 1 e.kind ++ leBytes 1 e.arg ++ leBytes 2 e.cause ++ leBytes 4 e.boots ++ leBytes 8 e.id ++ leBytes 4 e.detail
/-- The bytes of an audit log entry (R77). -/
def LogEntry.bytes (e : LogEntry) : List Byte := e.body ++ leBytes 4 e.crc
/-- The CRC of an entry holds; an entry whose CRC fails is treated as never written (R78). -/
def LogEntry.sound (e : LogEntry) : Bool := e.crc == crc32 e.body

/-- IMAGE_ID of the image in operation (R77): the one that an operation holds in staging, and else the one in force, 0 for
none. That an entry which no load makes (SLOT_ERASED, CORE_RETIRED, BOOT) holds the image in force, and one of a sealed commit
the image sealed, is a choice of the model (log entry 67). -/
def State.opImage (s : State) : Nat :=
  match s.op with
  | some o => if 2 ≤ o.phase then imgId s.vault.staging else s.image.id
  | none => s.image.id

/-- Append an entry to the MRAM audit log (R76, R77). -/
def State.logEntry (s : State) (kind arg cause detail : Nat) (ofSeal : Bool := false) : State :=
  let q := s.mram.head + 1
  let e : LogEntry := { seq := q, kind, arg, cause, boots := s.mram.boots, id := s.opImage, detail, ofSeal }
  { s with mram := { s.mram with head := q, log := ({ e with crc := crc32 e.body } :: s.mram.log).take 4096 } }

/-- The newest log entry was cut off before it was whole: its CRC is a free value (R78; log entry 31). -/
def State.tearEntry (s : State) : State :=
  let (w, s) := s.fresh
  match s.mram.log with
  | e :: r => { s with mram := { s.mram with log := { e with crc := w.toNat } :: r } }
  | [] => s

/-- UNIT of an error record (R536). -/
def unitWord (kind index : Nat) : Nat := kind * 4096 + index

/-- A core retires: it is noted in the audit log, and an error record and source UNIT_RETIRED tell of it (R20, R527). DETAIL of
CORE_RETIRED, for which R77 names no value, is 0 (DESIGN CHOICE, log entry 67). -/
def State.retireCore (s : State) (c rec' : Nat) : State :=
  if !s.coreOk c then s else
  (((({ s with safety := { s.safety with coreRet := s.safety.coreRet + 2 ^ c } } : State).logEntry 7 c 0 0).addRec rec' 0 0xFFFF
    (unitWord 3 c) 0).chipEvent 18)

/-- A core is to retire at the next load (R20, R446). -/
def State.retireLater (s : State) (c : Nat) : State :=
  { s with safety := { s.safety with coreNext := s.safety.coreNext ||| 2 ^ c } }

/-- A renderer, compressor or blit engine is retired: its bit of SAF_UNITS (R540), by its kind of R540. -/
def State.unitGone (s : State) (kind k : Nat) : Bool :=
  let b := if kind = 0 then k else if kind = 1 then 28 + k else 20 + k
  tb (s.pf O.SAF_UNITS).toNat b

end Sys2Proof.Machine
end

