-- ==== Sys2Proof/Machine/LadderRows.lean ====
section
/-! DEFINITION. The commands of the ladder of rungs and of Bellows (14_checkpoints_ladder.md), and the command ring entries
that order them (15_host_interface.md, R477). -/
namespace Sys2Proof.Machine

/-- HOLD (R452). -/
def execHold (n : Nat) (s : State) : Result := fin (s.ladderHold n)
/-- HOLD_NOW (R452). -/
def execHoldNow (n : Nat) (s : State) : Result := fin (s.ladderHoldNow n)
/-- PLAY (R450, R453, R458). `shelf` is the shelf image as its extents in host memory hold it, none when a read fails. -/
def execPlay (n : Nat) (shelf : Option (List Byte)) (s : State) : Result := fin (s.rungMove n 3 .playing shelf)
/-- BENCH (R450, R453). -/
def execBench (n : Nat) (shelf : Option (List Byte)) (s : State) : Result := fin (s.rungMove n 4 .benched shelf)
/-- PARK (R450, R453). -/
def execPark (n : Nat) (shelf : Option (List Byte)) (s : State) : Result := fin (s.rungMove n 5 .parked shelf)
/-- SHELVE (R453, R456). -/
def execShelve (n : Nat) (s : State) : Result := fin (s.rungMove n 6 .shelved none)
/-- REWIND (R440). -/
def execRewind (n : Nat) (s : State) : Result := fin (s.ladderRewind n)
/-- RESET (R450). -/
def execInstReset (n : Nat) (s : State) : Result := fin (s.ladderReset n)
/-- ADOPT (R450). -/
def execAdopt (n : Nat) (s : State) : Result := fin (s.ladderAdopt n)
/-- A queued rung command starts (R449). -/
def execRungCommandDequeue (n : Nat) (s : State) : Result := fin (s.rungDequeue n)

/-- Instance n has reached the boundary of the next frame to be released, and everything stamped before it has landed
(R107, R433). -/
def Inst.atBoundary (i : Inst) : Bool :=
  i.runs && i.journal.isEmpty && i.jobs.isEmpty && i.rendering.isEmpty && (i.core.beats.all fun b => decide (i.limit ≤ b.stamp))
    && (match leastDue i.dues with | some (k, _) => decide (i.limit ≤ keyStamp k) | none => true)

/-- The host writes that land at the boundary where the instance stands: those of its replay record, then those held
(R105, R443). After its checkpoint the writes held wait for the next boundary. -/
def Inst.toLand (i : Inst) : List HostWrite :=
  if i.ckptDone then [] else
  (if i.hlog.isEmpty then ((i.replay.find? fun r => r.frame == i.released).map (·.hlog)).getD [] else []) ++ i.hostHeld

/-- A host write lands (R105). -/
def State.landHost (s : State) (n stamp : Nat) (w : HostWrite) : State :=
  s.winApply n .host stamp w.off w.value

/-- Host writes land at the boundary, in order of arrival, and are logged (R105, R434, R443). -/
def execHostWriteLand (n : Nat) (s : State) : Result :=
  let i := s.inst n
  let l := i.toLand
  if !i.atBoundary || l.isEmpty then fin s else
  let s := s.setInst n { i with hostHeld := [], hlog := i.hlog ++ l }
  fin (l.foldl (fun s w => s.landHost n i.limit w) s)

/-- Checkpoint F of the boundary where the instance stands, once the host writes of the boundary have landed (R433). -/
def execCheckpoint (n : Nat) (s : State) : Result :=
  let i := s.inst n
  if i.atBoundary && !i.ckptDone && i.toLand.isEmpty then fin (s.takeCkpt n i.released) else fin s

/-- Block b of region r exists for instance n (R434). -/
def State.blockExists (s : State) (n r b : Nat) : Bool :=
  match r with
  | 2 => decide (b < s.quota n / 1024)
  | 3 => decide (b < s.workSize n / 4096)
  | 4 => decide (b < 64)
  | 5 => (s.ownedExtents n).contains (b / 4096) && decide (b % 4096 < (s.extEntry (b / 4096)).leaves * 16)
  | _ => false

/-- A block is copied to the undo record before the first write of its interval (R436). Every write of the model makes the
copy it needs; this command makes one early. -/
def execUndoCopy (n region block : Nat) (s : State) : Result :=
  let i := s.inst n
  if s.admitted n && (i.rung = .playing || i.rung = .held) && s.blockExists n region block then fin (s.undoCopy n region block)
  else fin s

/-- AUDITS counts completed audits modulo 2^24 (R460). -/
def Inst.audited (i : Inst) (k : Nat) : Inst := i.rSet O.BLW_AUDIT 23 0 (i.rbits O.BLW_AUDIT 23 0 + k)
/-- An audit is skipped (R447). -/
def Inst.auditSkipped (i : Inst) : Inst := i.modReg O.BLW_AUDIT fun w => countUp w 30 24 1

/-- MISMATCH and the instance fault reaction (R446); the core that serves the instance retires at the next load (R18, R20). -/
def State.auditMismatch (s : State) (n frame : Nat) : State :=
  let c := (s.inst n).servedBy
  let s := (s.modInst n fun i => i.rSet O.BLW_AUDIT 31 31 1).foundFault n 0x0A frame
  match c with | some c => s.retireLater c | none => s

/-- A failed audit may run again on audit slot `again`: on another core, or, where one core alone serves as audit core, on
another slot of it (R446). -/
def State.auditAgain (s : State) (slot again : Nat) : Bool :=
  (s.auditCore again).isSome && (s.auditCore again != s.auditCore slot || (s.auditCores.length == 1 && again != slot))

/-- The Playing instances out of catch-up are audited in turn, by instance number (R447): the one whose turn it is. -/
def State.auditTurn (s : State) : Option Nat :=
  let due := (s.insts.filter fun e => e.2.runs && e.2.catchUp.isNone).map (·.1)
  (due.find? fun n => decide (s.safety.auditNext ≤ n)).or due.head?

/-- The turn of the audits passes on from instance n. -/
def State.auditPassed (s : State) (n : Nat) : State := { s with safety := { s.safety with auditNext := n + 1 } }

/-- What an audit of the frame after checkpoint k writes would exceed the audit area (R445): DEDUCED, its blocks take what they take
in the ring (R437). -/
def Ckpt.auditBig (k : Ckpt) : Bool :=
  decide (16777216 < (k.undo.map fun u => 8 + regionBlock u.region).foldl (· + ·) 0)

/-- Audit cores a and b are to be tested (R446). -/
def State.markCores (s : State) (a b : Nat) : State :=
  { s with safety := { s.safety with coreMark := a :: b :: s.safety.coreMark } }

/-- An audit of frame NEWEST - 1 on an audit slot, and of a failed one again on a slot of another core (R445 to R447). The digest
differs from the checkpoint's only where hardware has failed (R16), which the outcome tells. -/
def execAuditRun (n slot again : Nat) (r : AuditOutcome) (s : State) : Result :=
  let i := s.inst n
  match s.auditCore slot with
  | none => fin s
  | some c =>
    if s.auditTurn != some n then fin s else
    let t := s.auditPassed n
    match i.ring[1]? with
    | none => fin (if i.cut then t.modInst n Inst.auditSkipped else t)
    | some k =>
      if k.auditBig then fin (t.modInst n Inst.auditSkipped) else
      match r with
      | .pass => fin (t.modInst n fun i => i.audited 1)
      | .secondPasses =>
        if !s.auditAgain slot again then fin s
        else fin ((t.modInst n fun i => i.audited 2).retireCore c 6)
      | .secondAgrees =>
        if !s.auditAgain slot again then fin s
        else fin ((t.modInst n fun i => i.audited 2).auditMismatch n k.frame)
      | .undecided =>
        if !s.auditAgain slot again then fin s
        else fin (((t.modInst n fun i => i.audited 2).auditMismatch n k.frame).markCores c ((s.auditCore again).getD c))

/-- An entry of the command ring (R477): malformed ones, and all after a chip fault, complete without effect. -/
def State.cmdEntry (s : State) (n : Nat) (e : List Byte) : State :=
  let v := (s.inst n).vf
  if v.ringPending 1 = 0 || (s.inst n).running.isSome || !s.awake then s else
  let s := s.modVf n fun v => v.advance 1 1
  let op := field e 0 1
  let arg := field e 1 1
  let tag := field e 4 4
  let bad := decide (9 < op) || bits arg 7 5 ≠ 0 || field e 2 2 ≠ 0 || field e 8 24 ≠ 0
  let ends (r : Nat) : State :=
    (s.modInst n fun i => { i with running := some { op, back := bits arg 3 0, wait := tb arg 4, tag := some tag } }).endCmd n r
  if s.chipFault then ends 9
  else if bad then ends 15
  else if op = 0 then ends 0
  else s.rungCmd n op (bits arg 3 0) (tb arg 4) (some tag)

/-- CMD_ENTRY (R477): `entry` is what the host's memory answers. -/
def execCmdEntry (n : Nat) (entry : List Byte) (s : State) : Result := fin (s.cmdEntry n entry)

end Sys2Proof.Machine
end

