-- ==== Sys2Proof/Machine/Frames.lean ====
section
/-! DEFINITION. Frames and lines (03_virtual_time_beam.md, R106 to R120; 05, 06 and 08): the release of a frame with its input,
state points with the cue walk, frame latches, the beam scheduler, and what a rendered line does to its packet. -/
namespace Sys2Proof.Machine

/-- Frame F makes a packet: it is no frame of a catch-up, and no fault packet has taken its place (R237, R238). -/
def Inst.streams (i : Inst) (frame : Nat) : Bool :=
  decide (i.doneTo ≤ frame) && (match i.catchUp with | some c => decide (c.goal ≤ frame) | none => true)

/-- ROOT cycles of a frame period (R83). -/
def Inst.framePeriod (i : Inst) : Nat := if i.adm.rate50 then 96000000 else 80000000

/-- The word that a cue write puts into its target, with the clamps of R8 (R162, R169). -/
def Inst.cueValue (i : Inst) (w : CueWrite) : Option (Word × Nat) :=
  (findReg windowRegs w.off).map fun r =>
    let old := leBytes 4 (i.regView w.off).toNat
    let new := (leBytes 4 w.value).zipIdx.map fun (b, k) => if tb w.byteEn k then b else old.getD k 0
    r.1.write (i.regView w.off) (BitVec.ofNat 32 (leNat new))

/-- A cue write is ordered immediately before the state point at stamp t (R166, R168, R169). Its byte mask is BYTE_EN, so that the other
bytes keep their values as it lands (R99, R162), but for one that a clamp has changed. -/
def State.cueApply (s : State) (n t : Nat) (w : CueWrite) : State :=
  match (s.inst n).cueValue w with
  | none => s
  | some (v, k) =>
    let old := leBytes 4 ((s.inst n).regView w.off).toNat
    (s.modCore n fun c => c.countClamps w.off k).beamWrite n ⟨2 * t, true, w.off, (leBytes 4 v.toNat).zipIdx.map fun (b, j) =>
      if tb w.byteEn j || b != old.getD j 0 then some b else none⟩

/-- VRAM bytes as the writes stamped before the state point t leave them, landed or waiting to land (R94, R167). -/
def State.seenByte (s : State) (n t a : Nat) : Byte := (s.overWaiting n 3 t a (s.vramBytes n a 1)).headD 0

/-- An offset at or above the quota (R124). -/
def State.beyond (s : State) (n a : Nat) : Bool := decide (s.quota n ≤ a)

/-- The check codes of the VRAM words that a fetch unit of a renderer reads (R406, R407, R529). -/
def State.eccFetched {α : Type} [DecidableEq α] (s : State) (n : Nat) (f : State → (Nat → Bool) → α) : State :=
  s.eccSensed n .pool (s.vramAt n 0) (s.quota n) 2 fun s lost => f s fun a => s.beyond n a || lost (s.vramAt n a)

/-- The cue unit's copies for a new frame (R164). -/
def Inst.cueFrame (i : Inst) : Inst :=
  let en := wbits (i.regView O.CUE_CTRL) 3 0
  { i with core := { i.core with
      cueEn := en
      cueBase := (List.range 4).map fun k => wbits (i.regView (O.CUE_LIST_BASE + 4 * k)) 15 0
      cueCur := (List.range 4).map fun k => if tb en k then 0 else i.core.cueCur.getD k 0 } }

/-- The registers of the video and cue blocks as a line sees them, by offset. -/
def Inst.seenReg (i : Inst) (o : Nat) : Nat := (i.regView o).toNat

/-- The walk of the cue lists for line L at stamp t, with its writes and status bits (R165 to R173). None: the journal has no
room (R168). -/
def State.cueLine (s : State) (n t L : Nat) (visible : Bool) : Option State :=
  let c := s.core n
  let walk (s : State) (bad : Nat → Bool) : CueWalk := cueWalk (s.seenByte n t) bad c.cueEn c.cueBase c.cueCur L
  let k := walk s (s.beyond n)
  let i := s.inst n
  if !k.writes.isEmpty && i.holdsWrites && decide (s.journalCap n < i.journal.length + k.writes.length) then none else
  let s := s.eccFetched n walk
  let s := s.modCore n fun c => ({ c with cueCur := k.cursors } : Core).rOr O.CUE_STATUS k.flags
  let s := k.writes.foldl (fun s w => s.cueApply n t w) s
  let i := s.inst n
  if visible && scrollRange (s.seenByte n t) (s.beyond n) i.seenReg L then some (s.modCore n fun c => c.rOr O.CUE_STATUS 8)
  else some s

/-- The line job of a visible line (R116, R117). -/
def State.lineJob (s : State) (n frame line : Nat) : State :=
  let i := s.inst n
  let dl := i.relAt + cdiv ((line + 1) * i.framePeriod) (classLines i.adm.cls)
  let j : LineJob := { frame, line, timing := i.core.timing, live := i.core.live, enq := s.eng.seq
                       deadline := if i.catchUp.isSome then none else some dl }
  { (s.setInst n { i with jobs := i.jobs ++ [j] }) with eng := { s.eng with seq := s.eng.seq + 1 } }

/-- The state point at stamp t (R93, R116, R164, R165, R247, R373). None: the instance waits there in wall time. -/
def State.linePoint (s : State) (n t : Nat) : Option State :=
  let i := s.inst n
  let k := i.core.nextLine
  let frame := k / classLines i.adm.cls
  let line := k % classLines i.adm.cls
  let visible := decide (line < timingLines i.core.timing)
  if line = 0 && i.streams frame && !(i.builds.any fun b => b.frame == frame) then none
  else if visible && decide (8 ≤ i.jobs.length) then none
  else
    match (if line = 0 then s.setInst n i.cueFrame else s).cueLine n t line visible with
    | none => none
    | some s =>
      let s := if visible then (s.modCore n fun c => c.pulse t 38).lineJob n frame line else s
      some (s.modCore n fun c => { c with nextLine := k + 1 })

/-- The frame latch (R95, R120, R187, R188, R191, R348). -/
def State.latchPoint (s : State) (n : Nat) : State :=
  let i := s.inst n
  let c := i.core
  let frame := c.nextLtch
  let live : Map Word := if c.commit then c.regs.filter fun e => shadowed e.1 else c.live
  let i := if live = c.live then i else i.markActive frame
  let c := if c.commit then c.setReg O.CMP_COMMIT_FRAME (BitVec.ofNat 32 (frame + 1)) else c
  let c : Core := { c with
    live, commit := false, timingIn := c.reg O.VID_TIMING, beam := c.beam ||| 2, nextLtch := frame + 1 }
  s.setInst n { i with core := c.rOr O.CMP_STATUS (sclClamped fun o => (live.get windowReset o).toNat) }

/-- The packet that names the next frame, if one is held (R475). -/
def Inst.inputFor (i : Inst) (frame : Nat) : Option HeldInput := i.held.find? fun h => h.frame == frame

/-- The recorded input of a frame that a REWIND has set back (R442, R444). -/
def Inst.recorded (i : Inst) (frame : Nat) : Option InputRec := (i.replay.find? fun r => r.frame == frame).bind (·.input)

/-- A rung command that runs stops the instance at its boundary, so that no further frame is released (R450, R452). -/
def Inst.stopping (i : Inst) : Bool :=
  match i.running with
  | some c => !c.queued && c.ended.isNone && [1, 2, 4, 5, 6].contains c.op
  | none => false

/-- The pacing modes (R107); a recorded input counts as a packet that has arrived (R444). -/
def Inst.liveRelease (i : Inst) (mode frame : Nat) : Bool :=
  let arrived := (i.inputFor frame).isSome || (i.recorded frame).isSome
  match mode with
  | 1 => i.expired
  | 2 => arrived
  | _ => arrived || i.expired

/-- The next frame may be released (R107, R433, R442, R444). -/
def State.mayRelease (s : State) (n : Nat) : Bool :=
  let i := s.inst n
  let f := i.released
  i.atBoundary && i.ckptDone && !i.stopping && (match i.catchUp with
    | some c => if f < c.goal then !c.wait || (i.inputFor f).isSome
                else i.liveRelease (s.pfBits (O.VID_PACE_CTRL + 32 * n) 1 0) f
    | none => i.liveRelease (s.pfBits (O.VID_PACE_CTRL + 32 * n) 1 0) f)

/-- The input record of a frame (R476): with a packet, or synthesised from the record of the frame before. -/
def Inst.inputRec (i : Inst) (frame : Nat) : InputRec :=
  match i.inputFor frame with
  | some h => ⟨leBytes 8 frame ++ leBytes 4 1 ++ ((h.data.drop 8).take 4) ++ ((h.data.drop 16).take 48), false⟩
  | none =>
    match i.recorded frame with
    | some ⟨d, false⟩ => ⟨d, false⟩
    | _ => ⟨leBytes 8 frame ++ leBytes 8 0 ++ ((i.core.input.drop 16) ++ List.replicate 48 0).take 48, true⟩

/-- What the release of frame F does to instance state at its boundary (R84, R120, R348, R373, R476). -/
def Core.releaseFrame (c : Core) (cls frame : Nat) (data : List Byte) : Core :=
  let t := frame * classFrameVc cls
  let c := { c with input := data, timing := c.timingIn, frame }
  let c := ((c.addMicro (keyOf t 1 0) (.beam 0 false)).addMicro (keyOf t 1 0) (.beam 1 false)).addMicro
    (keyOf (t + timingLines c.timing * classLineVc cls) 1 0) (.beam 0 true)
  c.pulse t 39

/-- The staging registers of the Bell layer of instance n (R203 to R205). -/
def State.bellStaged (s : State) (n : Nat) : BellCfg :=
  let r (o : Nat) : Nat := (s.pf (o + 128 * n)).toNat
  { ctrl := r O.CMP_BELL_CTRL, pos := r O.CMP_BELL_POS, size := r O.CMP_BELL_SIZE, expect := r O.CMP_BELL_EXPECT
    pal := (List.range 16).map fun k => r (O.CMP_BELL_PAL + 4 * k) }

/-- ACTIVE_BANK and PENDING of the Bell layer (R206). -/
def State.bellBank (s : State) (n : Nat) : Nat := s.pfBits (O.CMP_BELL_STATUS + 128 * n) 0 0
/-- PENDING. -/
def State.bellPending (s : State) (n : Nat) : Bool := s.pfBits (O.CMP_BELL_STATUS + 128 * n) 1 1 = 1

/-- The staging settings and bank of the Bell layer become active (R208). -/
def State.bellSwitch (s : State) (n : Nat) (cfg : BellCfg) : State :=
  (s.modInst n fun i => { i with bell := { act := cfg, next := none } }).pfSet (O.CMP_BELL_STATUS + 128 * n) 1 0
    (1 - s.bellBank n)

/-- The Bell settings and the bank of the frames released from now on (R208). -/
def State.bellFor (s : State) (n : Nat) : BellCfg × Nat :=
  match (s.inst n).bell.next with
  | some c => (c, 1 - s.bellBank n)
  | none => ((s.inst n).bell.act, s.bellBank n)

/-- Frame F = `released` is released (R107 to R109, R114, R120, R208, R256, R257, R444, R476). -/
def State.releaseFrame (s : State) (n : Nat) : State :=
  let i := s.inst n
  let f := i.released
  let live := match i.catchUp with | some c => decide (c.goal ≤ f) | none => true
  let rec' := i.inputRec f
  let modeCh := decide (i.core.timing ≠ i.core.timingIn)
  let streams := i.streams f
  let whDue := (if modeCh then [] else i.whDue) ++ (if streams then [f] else [])
  let s := if live && rec'.synth && i.expired then s.pfCount (O.VID_PACE_STATUS + 32 * n) 31 16 1 else s
  let bell := match i.bell.next with
    | some c => some c
    | none => if s.bellPending n then some (s.bellStaged n) else none
  let s := s.setInst n { i with
    core := i.core.releaseFrame i.adm.cls f rec'.data
    ring := match i.ring with | c :: r => { c with input := some rec' } :: r | [] => []
    held := i.held.filter fun h => h.frame != f
    replay := if live then [] else i.replay
    catchUp := if live then none else i.catchUp
    modes := if (i.modes.head?.map (·.2)) = some i.core.timingIn then i.modes else (f, i.core.timingIn) :: i.modes
    released := f + 1, relAt := s.wall, ckptDone := false, expired := false, preAudio := [], modeCh, whDue
    anchor := if i.reanchor && live then some (s.wall, f) else i.anchor
    reanchor := i.reanchor && !live
    bell := { i.bell with next := bell } }
  s.wrWork n 0 rec'.data

/-- The sets of the renderer group of instance n, as a mask (R21, R46). -/
def State.groupSets (s : State) (n : Nat) : Nat := s.image.groups.getD (s.inst n).adm.group 0

/-- Renderers of a set that are not retired (R22). -/
def State.setHealthy (s : State) (g : Nat) : List Nat :=
  ((List.range 5).map fun j => 5 * g + j).filter fun k => !s.unitGone 0 k

/-- The renderer of a set that is out of service: in a set that rotates, the one whose turn it is; in another, one under a
requested test (R22, R528). -/
def State.outOf (s : State) (g : Nat) : Option Nat :=
  if (s.setHealthy g).length = 5 then some (5 * g + s.safety.rendOut.getD g 4)
  else match s.safety.test with
    | some t => if t.kind = 0 && t.state = 2 && t.index / 5 = g then some t.index else none
    | none => none

/-- Renderer k is active (R22). -/
def State.rendActive (s : State) (k : Nat) : Bool :=
  decide (k < 20) && !s.unitGone 0 k && s.outOf (k / 5) != some k

/-- Renderer k holds a line. -/
def State.rendBusy (s : State) (k : Nat) : Bool := s.insts.any fun e => e.2.rendering.any fun r => r.renderer == k

/-- The first line job of an instance is before that of another in the order of a group's queue (R118). -/
def jobBefore (a b : Nat × LineJob) : Bool :=
  match a.2.deadline, b.2.deadline with
  | some x, some y => decide (x < y) || (x == y && (decide (a.2.enq < b.2.enq) || (a.2.enq == b.2.enq && decide (a.1 < b.1))))
  | some _, none => true
  | none, some _ => false
  | none, none => decide (a.2.enq < b.2.enq) || (a.2.enq == b.2.enq && decide (a.1 < b.1))

/-- The captures of earlier lines have landed (R200). -/
def Inst.capturesLanded (i : Inst) : Bool :=
  (i.rendering.all fun r => r.caps.isEmpty)
    && i.core.micro.all fun m => match m.2 with | .status _ _ _ _ caps => caps.isEmpty | _ => true

/-- The first line jobs that wait for a renderer of set g, with their instances. -/
def State.setJobs (s : State) (g : Nat) : List (Nat × LineJob) :=
  s.insts.filterMap fun e => match e.2.jobs with
    | j :: _ => if tb (s.groupSets e.1) g then some (e.1, j) else none
    | [] => none

/-- The job that a renderer of set g takes next (R101, R118). One that R101 holds back is passed over: the manual does not say whether
it blocks the later jobs of the queue (DESIGN CHOICE, log entry 66). -/
def State.nextJob (s : State) (g : Nat) : Option (Nat × LineJob) :=
  let all := s.setJobs g
  let live := all.any fun e => e.2.deadline.isSome
  let ready := all.filter fun e => (e.2.deadline.isSome || !live) && (s.inst e.1).jobReady e.2 && (s.inst e.1).capturesLanded
  ready.foldl (fun b e => match b with
    | none => some e
    | some x => if jobBefore e x then some e else some x) none

/-- The job queue of renderer k has an entry for a line job: the beam scheduler holds a credit there (R27, R28). A renderer takes a job
only once it has none (R118), so that one credit is enough. -/
def State.rendCredit (s : State) (k : Nat) : Bool :=
  decide (0 < creditSum (s.image.credits.filter fun c => c.pkind == 0) 5 k 0)

/-- A renderer captures a line and computes what it shows (R94, R98, R121, R186, R200). -/
def State.captureLineOf (s : State) (n k : Nat) (j : LineJob) : State :=
  let rd (s : State) (a : Nat) : Byte := s.pool.get zeroByte (s.vramAt n a)
  let rg (o : Nat) : Nat := ((s.core n).reg o).toNat
  let lv (o : Nat) : Nat := (j.live.get windowReset o).toNat
  let width := timingCols j.timing
  let video (s : State) (bad : Nat → Bool) : LineVideo := videoLine (rd s) bad rg width j.line
  let picture (s : State) (bad : Nat → Bool) (v : LineVideo) : PictureLine := composeLine (rd s) bad lv v.src width j.line
  let v := video s (s.beyond n)
  let p := picture s (s.beyond n) v
  let caps := captureLine (lv O.CMP_CAP_CTRL) (lv O.CMP_CAP_SURF) j.line p.px
  let s := s.eccFetched n fun s bad => (video s bad, (picture s bad v).px, (picture s bad v).status)
  let fits (w : CapWrite) : Bool := decide (w.addr + w.data.length ≤ s.quota n)
  let r : Rendering := { job := j, renderer := k, video := v, pic := p.px, caps := caps.filter fits
                         cmp := p.status ||| (if caps.all fits then 0 else 64) }
  s.modInst n fun i => { i with jobs := i.jobs.drop 1, rendering := i.rendering ++ [r] }

end Sys2Proof.Machine
end

