-- ==== Sys2Proof/Machine/Serfer.lean ====
section
/-! DEFINITION. The Serfer operations (02_serfer_images.md, R50 to R78): how an operation starts and ends, the fuse requests, the
commit of an image, and the reset of the whole device that cuts an operation off (R60, R555, R556). -/
namespace Sys2Proof.Machine

/-- What the sums of R33 take from the device (R19, R22, R34, R61). -/
def State.loadEnv (s : State) : LoadEnv :=
  { healthy := s.coresOk
    active := (List.range 4).map fun g => (((List.range 5).map fun j => 5 * g + j).filter s.rendActive).length
    comps := (List.range 4).map fun g => b2n !(s.unitGone 1 g)
    lanes := if s.host.linkUp then s.host.lanes else 0
    rate10 := [0, 25, 50, 80, 160, 320, 640].getD s.host.rate 0 }

/-- An area of the Vault is wiped (R413): WIPES counts it (R414). -/
def State.wipe (s : State) : State := s.pfCount O.POOL_VAULT_STATUS 15 8 1

/-- An operation ends with a result, `ms` ms after its last phase began (R53, R59, R72, R413, R537). -/
def State.endOp (s : State) (result ms : Nat) : State :=
  let all := ms + match s.op with | some o => o.ms | none => 0
  let s : State := { s with op := none, vault := s.vault.noStaging }
  (((s.wipe.setPf O.MGT_IMG_STATUS (BitVec.ofNat 32 (result * 65536 + min all 255))).setPf O.MGT_FUSE_ARM 0).chipEvent 0).tick
    (ms * 4800000)

/-- The operation goes on to what `o` says, after `ms` ms (R53, R56). -/
def State.opOn (s : State) (o : MgtOp) (ms : Nat) : State :=
  ({ s with op := some { o with ms := o.ms + ms } } : State).tick (ms * 4800000)

/-- Phase 1 ends with the bytes fetched into the staging area of the Vault (R56, R412). -/
def State.opFetched (s : State) (o : MgtOp) (b : List Byte) (ms : Nat) : State :=
  ({ s with vault := { s.vault.stored 0 (b.length / 8) with staging := b } } : State).opOn { o with phase := 2 } ms

/-- An instance stands in the way of a load (R57): it is not Shelved, or a command takes it out of Shelved. -/
def Inst.blocksLoad (i : Inst) : Bool :=
  i.adm.state == 2 && (i.rung != .shelved || match i.running with
    | some c => c.ended.isNone && [3, 4, 5].contains c.op
    | none => false)

/-- The cores that were to retire at the next load retire as it begins (R20, R61). -/
def State.retireDue (s : State) : State :=
  let due := (List.range 66).filter fun c => tb s.safety.coreNext c
  due.foldl (fun s c => s.retireCore c 6) { s with safety := { s.safety with coreNext := 0 } }

/-- A write of MGT_IMG_CTRL (R8, R52, R56, R57, R506, R534). Any operation wakes the chip, one that ends at once included. That
ERASE_SLOT shows PHASE 0 is a choice of the model: the table of R56 has no phase for it (log entry 4). -/
def State.imgCtrl (s : State) (v : Word) : State :=
  let slot := wbits v 26 24
  let op := wbits v 3 0
  let s := s.setPf O.MGT_IMG_CTRL (BitVec.ofNat 32 (slot * 2 ^ 24))
  if op = 0 || s.op.isSome || s.chipFault then s
  else if 5 < op then s.pfCount O.MGT_CLAMP_COUNT 31 0 1
  else if op ≤ 2 && s.insts.any (fun e => e.2.blocksLoad) then (s.endOp 0x10 0).wake false
  else
    let s := if op ≤ 2 then s.retireDue else s
    let o : MgtOp := { op, slot, env := s.loadEnv, phase := if op = 5 then 0 else 1, seq := s.host.orders }
    ({ s with op := some o, host := { s.host with orders := s.host.orders + 1 } } : State).wake false

/-- The operation under way, if it is `op` and may act: the chip is awake, and no wipe of the Vault runs (R56, R413, R506). -/
def State.opRuns (s : State) (op : Nat) : Option MgtOp :=
  match s.op with
  | some o => if o.op = op && s.awake && !s.vault.wipeEnd then some o else none
  | none => none

/-- Slot k of the MRAM (R66). -/
def State.slotAt (s : State) (k : Nat) : Slot := s.mram.slots.getD k {}
/-- Replace it. -/
def State.setSlot (s : State) (k : Nat) (x : Slot) : State := { s with mram := { s.mram with slots := s.mram.slots.set k x } }
/-- The newest sealed commit (R68, R69). -/
def State.sealed (s : State) : Option Commit := s.fuses.commits.getLast?
/-- Slot k is the slot of the sealed default (R67). -/
def State.isSealed (s : State) (k : Nat) : Bool := match s.sealed with | some c => c.slot == k | none => false

/-- The device reset (R555, R556): every register returns to its reset value and every instance is discarded. MRAM, fuses,
error records, TAMPER_SEEN and WIPES stay, as do what lies outside the device (the boot flash, the levels at the pins), the
straps as sampled last (R545), and tamper assertions still to be handled (R544). -/
def State.deviceReset (s : State) : State :=
  let vault := (s.pf O.POOL_VAULT_STATUS).toNat
  let t : State :=
    { pending := s.pending, mram := s.mram, fuses := s.fuses, tx := s.tx, answer := s.answer, free := s.free
      boot := { copyA := s.boot.copyA, copyB := s.boot.copyB, powered := s.boot.powered, perst := s.boot.perst }
      safety := { recs := s.safety.recs, head := s.safety.head, tamperNow := s.safety.tamperNow }
      pins := { ext := s.pins.ext, sampled := s.pins.sampled, straps := s.pins.straps, hpd := s.pins.hpd } }
  t.setPf O.POOL_VAULT_STATUS (BitVec.ofNat 32 (bits vault 31 30 * 2 ^ 30 + bits vault 15 8 * 256))

/-- PERST# asserts (R542, R555): the device is in reset. -/
def State.intoReset (s : State) : State :=
  let s := s.deviceReset
  { s with boot := { s.boot with perst := true } }

/-- The fuse count that DETAIL of FUSE_INTENT names: the count after the burn (R78; DEDUCED of FUSE_INTENT). -/
def burnCount (f : Fuses) (b : List Byte) (kind arg : Nat) : Nat := fuseCount (burn f b kind arg) kind

/-- A burn lands in the fuses, and in their shadows in the Vault (R412). -/
def State.burnt (s : State) (f : Fuses) : State :=
  let x := s.vault.secrets
  { s with fuses := f, vault := { s.vault with secrets := { x with shadows := x.shadows.map fun _ => f } } }

/-- A lifecycle transition wipes the secrets area (R71, R413). -/
def State.lifecycleWipe (s : State) (kind : Nat) : State :=
  if kind = 1 then ({ s with vault := s.vault.noSecrets } : State).wipe else s

/-- PERST# or a loss of power cuts off the writing of the newest log entry, if `cut` says so; it tells whether the entry was whole
(R60, R78). -/
def State.cutEntry (s : State) (cut : Option Bool) : State :=
  match cut with
  | none => s
  | some whole => (if whole then s else s.tearEntry).intoReset

/-- A burn to `f`; `cut` tells of PERST# or a loss of power at it, and whether it landed (R60, R78). -/
def State.cutBurn (s : State) (f : Fuses) (cut : Option Bool) : State :=
  match cut with
  | none => s.burnt f
  | some landed => (if landed then s.burnt f else s).intoReset

/-- One step of phase 5 (R71, R72, R78): the fuse request at the front is refused, or its FUSE_INTENT is written, its fuses burn,
or its FUSE_DONE is written; with none left, phase 6 comes. DETAIL of FUSE_REFUSED, for which R77 names no value, is 0 (DESIGN
CHOICE, log entry 67). -/
def State.burnStep (s : State) (o : MgtOp) (ms : Nat) (cut : Option Bool) : State :=
  let b := s.vault.staging
  match o.burns with
  | [] => s.opOn { o with phase := 6 } ms
  | (kind, arg, clean) :: rest =>
    let done : MgtOp := { o with burns := rest, burn := 0 }
    let allow := s.pfBits O.MGT_FUSE_ARM 3 0
    match o.burn with
    | 0 =>
      let cause := requestCause s.fuses allow b (kind, arg, clean)
      if cause ≠ 0 then ((s.logEntry 6 kind cause 0).opOn done ms).cutEntry cut
      else ((s.logEntry 4 kind 0 (burnCount s.fuses b kind arg)).opOn { o with burn := 1 } ms).cutEntry cut
    | 1 => ((s.pfSet O.MGT_FUSE_ARM 3 0 (allow - 1)).opOn { o with burn := 2 } ms).cutBurn (burn s.fuses b kind arg) cut
    | _ => (((s.logEntry 5 kind 0 (fuseCount s.fuses kind)).lifecycleWipe kind).opOn done ms).cutEntry cut

/-- An instance that the image in force does not take in (R62): its registers of the stream and Bellows blocks, its VF with the
packets held for it and its Bell settings stay. -/
def Inst.without (i : Inst) (a : Admit) : Inst :=
  { adm := a, regs := i.regs, held := i.held, bell := i.bell, vf := i.vf, running := i.running }

/-- The admission of an instance keeps its Shelved state (R59). -/
def sameAdmit (a b : Admit) : Bool :=
  a.state == 2 && b.state == 2 && a.cls == b.cls && a.rate50 == b.rate50 && a.aud32 == b.aud32 && a.slots == b.slots
    && a.vram == b.vram && a.work == b.work

/-- Phase 7 for instance n (R59, R62, R208, R257, R266). A rung command that ran meanwhile on an instance which is then absent
or clamped ends with NOT_ADMITTED (DEDUCED). -/
def State.commitInst (s : State) (n : Nat) (a : Admit) : State :=
  let i := s.inst n
  if a.state ≠ 2 then
    let s := (s.setInst n (i.without a)).endCmd n 6
    if s.bellPending n then s.bellSwitch n ((s.inst n).bell.next.getD (s.bellStaged n)) else s
  else if sameAdmit i.adm a then s.setInst n (({ i with adm := a } : Inst).resetWhistle.resetFlash)
  else (s.setInst n { i with adm := a, rung := .shelved, faultHeld := false, found := [], packets := [] }).resetInst n

/-- The VDD_CORE target after a change of plan (R498, R499): it rises only for a faster plan and falls only for a slower one.
`avs` is what the speed monitors ask for. -/
def avsAfter (was now : Bool) (old avs : Nat) : Nat :=
  if avs < 700 || decide (800 < avs) then old
  else if was && !now then max old avs
  else if !was && now then min old avs
  else old

/-- Phase 7 of a load (R18, R59, R62, R64, R73, R77, R416, R424, R498, R526); the answer holds the result. -/
def State.commitImage (s : State) (b : List Byte) (env : LoadEnv) (slot avs : Nat) : Nat × State :=
  let sums := admitAll b env
  let recs := admitRecords b sums
  let clamped := (sums.res.filter fun x => x.2 != 0).length
  let result := if clamped = 0 then 0 else 1
  let mode := imgMode b
  let mv := avsAfter s.quiet (mode == 2) (s.pfBits O.CLK_STATUS 25 16) avs
  let nums := (s.insts.map (·.1)) ++ (recs.map (·.1)).filter fun n => !s.insts.any fun e => e.1 == n
  let last := s.auditCores.getLast?.getD 65
  let s : State := { s with
    image := { mode, id := imgId b, groups := imgGroups b, flash := max (imgFlash b) s.fuses.floor, audio := secOr b 0x0005, clamped
               admitted := sums.okd.length, bases := regionBases sums.okd
               credits := (imgCredits b).filter (fun c => c.pkind == 0) ++ sums.credits }
    safety := { s.safety with auditFrom := (last + 1) % 66, vddLow := min mv s.safety.vddLow } }
  let s := nums.foldl (fun s n => s.commitInst n (recs.get (fun _ => {}) n)) s
  let s := (s.placeAll (sums.okd.map fun e => (e.number, e.slots))).foldl (fun s e => s.modInst e.1 fun i => { i with place := some e.2 }) s
  let s := (s.evict (s.cacheFrames 131072) s.mem.leaves.length).pfSet O.CLK_STATUS 25 16 mv
  (result, s.logEntry 1 slot 0 result)

/-- The result of the checks of phases 2 to 4 of a load (R41, R43, R50), 0 where all hold. -/
def loadResult (f : Fuses) (b : List Byte) : Nat :=
  let r := checkImage b
  let r := if r ≠ 0 then r else checkKey f b
  if r ≠ 0 then r else checkCredits b

/-- A load of image bytes at once, without fuse requests: that of the sealed default at boot (R69). -/
def State.loadImage (s : State) (b : List Byte) (env : LoadEnv) (slot ms avs : Nat) : State :=
  let r := loadResult s.fuses b
  if r ≠ 0 then s.endOp r ms else
  let (r, s) := s.commitImage b env slot avs
  s.endOp r ms

/-- A load may take the cache's dirty leaves back to the host (R424, R466). -/
def State.loadFree (s : State) : Bool := s.pfTraffic || !s.mem.leaves.any (·.dirty)

/-- The change of plan may come: no PF mover descriptor is in flight but for those whose completion entry waits (R498). -/
def State.planFree (s : State) : Bool := s.host.descs.all (·.waits)

/-- The words of the image in staging are read and checked: whether one is uncorrectable, which is a chip fault (R406, R407, R532). -/
def State.stagingRead (s : State) : Bool × State :=
  match s.eccRange .vault 0 0 s.vault.staging.length with
  | (some u, s) => (true, s.foundChip 8 (s.errAddr ⟨.vault, u / 8⟩))
  | (none, s) => (false, s)

/-- One step of phases 2 to 7 of a load of the image in staging (R50, R56, R58, R498). A phase that fails ends the operation. -/
def State.loadPhase (s : State) (o : MgtOp) (ms avs : Nat) (cut : Option Bool) : State :=
  let (ue, s) := s.stagingRead
  if ue then s else
  let b := s.vault.staging
  let gate (r next : Nat) : State := if r ≠ 0 then s.endOp r ms else s.opOn { o with phase := next } ms
  match o.phase with
  | 2 => gate (checkImage b) 3
  | 3 => gate (checkKey s.fuses b) 4
  | 4 => if checkCredits b ≠ 0 then s.endOp (checkCredits b) ms else s.opOn { o with phase := 5, burns := imgRequests b } ms
  | 5 => s.burnStep o ms cut
  | 6 => s.opOn { o with phase := 7 } ms
  | _ =>
    if !s.loadFree || !s.planFree then s else
    let (r, s) := s.commitImage b o.env (if o.op = 2 then o.slot else 0) avs
    s.endOp r ms

end Sys2Proof.Machine
end

