-- ==== Sys2Proof/Machine/Merge.lean ====
section
/-! DEFINITION. A rendered line on its way to the stream (06_composition.md, R197 to R210; 08_stream_output.md, R254, R261 to R266):
Flash Mute, the Bell layer, the tick pixel, signatures, and the hand-over to a compressor. -/
namespace Sys2Proof.Machine

/-- A running CRC-32 over a line of pixels, three bytes B, G, R each (R254). -/
def crcLine (crc : Nat) (px : List Nat) : Nat :=
  px.foldl (fun c p => (leBytes 3 p).foldl (fun c b => crcStep 0xEDB88320 c b.toNat) c) crc

/-- Change the build of a frame. -/
def Inst.modBuild (i : Inst) (frame : Nat) (f : FrameBuild → FrameBuild) : Inst :=
  { i with builds := i.builds.map fun b => if b.frame = frame then f b else b }

/-- W of R264. -/
def Inst.flashW (i : Inst) : Nat := if i.adm.rate50 then 50 else 60

/-- The values of the cells of a frame (R261, R262). -/
def cellValues (sums : List Nat) (vw vh : Nat) : List Nat :=
  sums.zipIdx.map fun (s, cell) => s / flashCount vw vh cell

/-- Flash Mute at the end of a streamed frame: the cells, the trigger, and the gain of the next frame (R263 to R265, R482). -/
def State.flashFrame (s : State) (n : Nat) (b : FrameBuild) : State :=
  let i := s.inst n
  let w := i.flashW
  let vs := cellValues b.sums (timingCols b.timing) (timingLines b.timing)
  let cells := if i.cells.isEmpty then vs.map fun v => { ext := v }
    else i.cells.zipIdx.map fun (c, k) => flashStep b.frame w (vs.getD k 0) c
  let trig := flashTrigger s.image.flash cells
  let calm := if trig then 0 else i.calm + 1
  let gain := if trig then 64 else if w ≤ calm then min 256 (i.gain + 16) else i.gain
  let s := s.setInst n { i with cells, calm, gain }
  let o := O.STR_FLASH + 16 * n
  let s := (s.pfSet o 8 0 b.gain).pfCount o 31 16 (b2n trig)
  if i.gain = 256 && decide (gain < 256) then s.vfMsix n 7 else s

/-- The bytes of a Bell bank (R203). -/
def State.bankByte (s : State) (n bank : Nat) (a : Nat) : Byte := s.pool.get zeroByte (0x6880000 + n * 0x8000 + bank * 0x3000 + a)

/-- A Bell bank with the bytes of lost addresses changed. -/
def State.bankLost (s : State) (n bank : Nat) (lost : Nat → Bool) (a : Nat) : Byte :=
  if lost (0x6880000 + n * 0x8000 + bank * 0x3000 + a) then s.bankByte n bank a ^^^ 0xFF else s.bankByte n bank a

/-- The words of a Bell bank that the merge of instance n reads to make `f` of it are checked (R406, R407). -/
def State.bankChecked {α : Type} [DecidableEq α] (s : State) (n bank : Nat) (f : (Nat → Byte) → α) : State :=
  s.eccSensed n .pool (0x6880000 + n * 0x8000 + bank * 0x3000) 0x3000 2 fun s lost => f (s.bankLost n bank lost)

/-- The line whose merge completes the Bell check of a frame: the last region line, or the last visible line where the region
ends below it or holds no visible line (R210). -/
def bellLastLine (c : BellCfg) (vw vh : Nat) : Nat :=
  let y := (bellOrigin c vw vh).2 + (c.h * c.scale : Nat) - 1
  if c.h = 0 || y < 0 || (vh : Int) ≤ y then vh - 1 else y.toNat

/-- The instance has reached the boundary that ends a frame (R236). -/
def Inst.frameOver (i : Inst) (frame : Nat) : Bool :=
  decide (frame + 1 < i.released) || (i.released == frame + 1
    && (match leastDue i.dues with | some (k, _) => decide (i.limit ≤ keyStamp k) | none => true))

/-- The stale count after a streamed frame, and whether it reached its limit (R257, R260). -/
def Inst.staleStep (i : Inst) (b : FrameBuild) (sig : Nat) : Nat × Bool :=
  let reset := b.modeCh || b.rewound
  let same := !reset && i.staleSig == some sig
  let run := if reset then 0 else i.staleRun
  let run := if !same then 0 else if i.active.contains b.frame then run + 1 else run
  let lim := if i.adm.stale = 0 then 8 else i.adm.stale
  if lim ≤ run then (0, true) else (run, false)

/-- The bytes of a whole packet (R232, R233, R235). -/
def packetBytes (n : Nat) (a : Admit) (b : FrameBuild) (stale : Bool) (isig : Nat) : List Byte :=
  let video := if b.bellBad then [] else surfaceBytes 0 (timingCols b.timing) (timingLines b.timing) b.rows
  let audio := audioBytes b.audio
  let total := roundUp (64 + video.length + audio.length) 64
  let body := video ++ audio ++ List.replicate (total - 64 - video.length - audio.length) 0
  packetHeader n a b.frame total video.length b.audio.length b.timing 0 b.late (b.marks stale) b.gain
    (nxor b.frameCrc 0xFFFFFFFF) isig (crc32 body) ++ body

/-- The audio of a complete packet joins the queue of each I2S output that carries its instance (R275). -/
def State.i2sQueue (s : State) (n : Nat) (audio : List Stereo) : State :=
  loop 2 (fun k s =>
    let m := s.mons.getD k {}
    if !s.dpoOn k || m.source ≠ some n then s else
    let full := decide (3 ≤ m.audio.length)
    let m : Monitor := { m with audio := (if full then m.audio.drop 1 else m.audio) ++ [audio] }
    ({ s with mons := s.mons.set k m } : State).pfCount (O.DPO_I2S + 16 * k) 15 0 (b2n full)) s

/-- A packet becomes complete (R236, R246, R256, R260, R275). -/
def State.completePacket (s : State) (n : Nat) (b : FrameBuild) : State :=
  let i := s.inst n
  let isig := nxor b.instCrc 0xFFFFFFFF
  let (run, stale) := i.staleStep b isig
  let data := packetBytes n i.adm b stale isig
  let p : Packet := { frame := b.frame, slot := b.slot, total := data.length, seq := s.eng.seq, first := b.modeCh || b.rewound }
  let i : Inst := { i with
    lastFault := false, builds := i.builds.drop 1, packets := i.packets ++ [p], doneTo := b.frame + 1, staleRun := run, staleSig := some isig
    active := i.active.filter fun f => decide (b.frame < f) }
  let s := (s.setInst n (i.seenFrame b.frame)).wrHbm (i.slotAt b.slot) data
  let s := ({ s with eng := { s.eng with seq := s.eng.seq + 1 } } : State).i2sQueue n b.audio
  if !stale then s else
  let s := s.whistle n 2
  if s.pfBits (O.STR_INST_CFG + 16 * n) 0 0 = 1 then s.foundFault n 8 b.frame else s

/-- The Bell check of a frame (R206, R209, R210, R236). A frame whose check fails with its last line, and whose audio is whole, is
complete at once with VIDEO_BYTES 0; else the instance fault reaction discards the packet. -/
def State.bellCheck (s : State) (n : Nat) (b : FrameBuild) : State :=
  let fits := bellFits b.bell (timingCols b.timing) (timingLines b.timing)
  let crc := bellCrc (s.bankByte n b.bank) b.bell
  let s := s.bankChecked n b.bank fun bank => bellCrc bank b.bell
  let bad := !fits || crc != b.bell.expect
  let st := O.CMP_BELL_STATUS + 128 * n
  let b : FrameBuild := { b with bellDone := true, bellBad := bad }
  let s := s.modInst n fun i => i.modBuild b.frame fun _ => b
  let s := if fits then s.setPf (O.CMP_BELL_CRC + 128 * n) (BitVec.ofNat 32 crc) else s.pfOr st 8
  if !bad then s else
  let i := s.inst n
  let whole := b.lines = timingLines b.timing && i.frameOver b.frame && i.inProgress = b.frame
  let s := if whole then
      let s := s.completePacket n b
      { s with eng := { s.eng with cmpQ := s.eng.cmpQ.filter fun q => !(q.inst == n && q.frame == b.frame) } }
    else s
  ((s.pfOr st 4).pfCount st 31 24 1).foundFault n 9 b.frame

/-- The compressor that takes a line: that of its block row (R245). For the first line of a row the manual leaves open which
compressor of a group of two or four sets takes it (R21): the model takes that of the set whose renderer finishes the line, and
the lowest healthy one of the group where that is retired (DESIGN CHOICE, log entry 59). -/
def State.rowSet (s : State) (n frame line k : Nat) : Nat :=
  match s.eng.cmpQ.find? fun q => q.inst == n && q.frame == frame && q.line / 4 == line / 4 with
  | some q => q.set
  | none => if s.unitGone 1 (k / 5) then ((List.range 4).find? fun g => tb (s.groupSets n) g && !s.unitGone 1 g).getD (k / 5)
    else k / 5

/-- The compressor of a set has room for a line, by the credits of its input queue (R27, R28, R245). -/
def State.cmpRoom (s : State) (g : Nat) : Bool :=
  decide ((s.eng.cmpQ.filter fun q => q.set == g).length < min 32 (creditSum s.image.credits 6 g 0))

/-- Stages 2 to 5 of R197 for a line of a streamed frame. -/
def State.mergeLine (s : State) (n k : Nat) (b : FrameBuild) (r : Rendering) : State :=
  let j := r.job
  let (vw, vh) := (timingCols b.timing, timingLines b.timing)
  let gain := if j.line = 0 then (s.inst n).gain else b.gain
  let pic := r.pic.map (attenuate gain)
  let px := bellLine (s.bankByte n b.bank) b.bell vw vh j.line pic
  let s := s.bankChecked n b.bank fun bank => bellLine bank b.bell vw vh j.line pic
  let px := tickLine b.frame vw vh j.line px
  let b : FrameBuild := { b with
    gain, lines := b.lines + 1, instCrc := crcLine b.instCrc r.pic, frameCrc := crcLine b.frameCrc px
    sums := flashAdd b.sums vw vh j.line r.pic, out := b.out ++ [px] }
  let s := s.modInst n fun i => i.modBuild b.frame fun _ => b
  let s := { s with eng := { s.eng with cmpQ := s.eng.cmpQ ++ [⟨n, b.frame, j.line, s.rowSet n b.frame j.line k⟩] } }
  let s := if tb b.bell.ctrl 0 && decide (j.line = bellLastLine b.bell vw vh) then s.bellCheck n b else s
  if j.line + 1 = vh then s.flashFrame n b else s

/-- A renderer finishes the line it holds (R119, R152, R200); lines of an instance finish in order, and a line of a streamed
frame needs a credit (R245). That a frame of a catch-up, which makes no packet, is neither merged with the Bell layer nor checked
for it is a choice of the model: R210 and R238 leave it open (log entry 66). -/
def State.lineDone (s : State) (n k : Nat) (r : Rendering) : State :=
  let i := s.inst n
  let b := i.builds.find? fun b => b.frame == r.job.frame && i.streams b.frame
  if b.isSome && !s.cmpRoom (s.rowSet n r.job.frame r.job.line k) then s else
  let late := match r.job.deadline with | some d => decide (d < s.wall) | none => false
  let sp := i.jobSp r.job + classStatusVc i.adm.cls
  let i : Inst := { i with
    rendering := i.rendering.drop 1
    core := i.core.addMicro (keyOf sp 1 1) (.status r.job.frame r.job.line r.video r.cmp r.caps) }
  let s := s.setInst n (if late then i.modBuild r.job.frame fun b => { b with late := b.late + 1 } else i)
  let s := if late then (s.pfCount (O.VID_LATE_LINES + 32 * n) 31 0 1).pfCount O.VID_SCH_LATE_TOTAL 31 0 1 else s
  let s := match b with
    | some b => s.mergeLine n k (if late then { b with late := b.late + 1 } else b) r
    | none => s
  s.settle n

end Sys2Proof.Machine
end

