-- ==== Sys2Proof/Machine/StreamRows.lean ====
section
/-! DEFINITION. The commands of the stream (08_stream_output.md, R232 to R260; 12_dma.md, R392; 15_host_interface.md,
R480, R481). -/
namespace Sys2Proof.Machine

/-- The state point whose turn it is starts a streamed frame that has no slot yet (R247). -/
def Inst.claimDue (i : Inst) : Option Nat :=
  let k := i.core.nextLine
  let frame := k / classLines i.adm.cls
  match i.turn with
  | some (_, .line) =>
    if k % classLines i.adm.cls = 0 && i.streams frame && !(i.builds.any fun b => b.frame == frame) then some frame else none
  | _ => none

/-- The stream unit claims a slot for a frame and begins its packet (R234, R247). -/
def State.beginFrame (s : State) (n frame : Nat) : State :=
  match s.claimSlot n with
  | none => s
  | some (slot, s) =>
    let i := s.inst n
    let (bell, bank) := s.bellFor n
    let b : FrameBuild := { frame, slot, bell, bank, timing := i.core.timing, synth := field i.core.input 8 1 = 0
                            modeCh := i.modeCh, rewound := i.rewound, gain := i.gain, audio := i.preAudio }
    s.setInst n { i with builds := i.builds ++ [b], preAudio := [], modeCh := false, rewound := false }

/-- STREAM_SLOT_CLAIM (R247, R250). -/
def execStreamSlotClaim (n : Nat) (s : State) : Result :=
  match (s.inst n).claimDue with
  | some f => fin (s.beginFrame n f)
  | none => fin s

/-- The block row that compressor g takes next: the oldest whose lines have all come and whose earlier rows are encoded
(R245). -/
def State.nextRow (s : State) (g : Nat) : Option (CmpJob × FrameBuild) :=
  s.eng.cmpQ.findSome? fun q =>
    if q.set ≠ g || q.line % 4 ≠ 0 then none else
    match (s.inst q.inst).builds.find? fun b => b.frame == q.frame with
    | some b => if b.rows.length = q.line / 4 && decide (q.line + 4 ≤ b.out.length) then some (q, b) else none
    | none => none

/-- COMPRESS_ROW (R240 to R242, R245): a compressor under test holds no work (R526). -/
def execCompressRow (g : Nat) (s : State) : Result :=
  if 4 ≤ g || s.unitGone 1 g || s.testOn 1 g then fin s else
  match s.nextRow g with
  | none => fin s
  | some (q, b) =>
    let row := encodeRow 3 (timingCols b.timing) ((b.out.drop q.line).take 4)
    let s := s.modInst q.inst fun i => i.modBuild q.frame fun b => { b with rows := b.rows ++ [row] }
    fin { s with eng := { s.eng with
      cmpQ := s.eng.cmpQ.filter fun p => !(p.inst == q.inst && p.frame == q.frame && p.line / 4 == q.line / 4) } }

/-- The first packet under construction is complete (R236). -/
def State.packetReady (s : State) (n : Nat) : Option FrameBuild :=
  match (s.inst n).builds with
  | b :: _ =>
    if decide (4 * b.rows.length = timingLines b.timing) && (s.inst n).frameOver b.frame && (!tb b.bell.ctrl 0 || b.bellDone)
    then some b else none
  | [] => none

/-- PACKET_COMPLETE (R236). -/
def execPacketComplete (n : Nat) (s : State) : Result :=
  match s.packetReady n with
  | some b => fin (s.completePacket n b)
  | none => fin s

/-- The mover transfers between the HBM and the host may start (R397, R462). -/
def State.hbmToHost (s : State) : Bool :=
  s.host.linkUp && s.powered 13 && !s.isDraining 13 && s.powered 14 && !s.isDraining 14

/-- What a mover channel may take: the packet or the bypass block of an instance. -/
structure ChItem where
  seq  : Nat
  inst : Nat
  byp  : Bool
  deriving DecidableEq, Repr

/-- A channel waits at this item: a packet without room whose instance does not drop (R392). -/
def State.itemWaits (s : State) (x : ChItem) : Bool :=
  !x.byp && (s.inst x.inst).ringWaits && !tb ((s.inst x.inst).reg O.STR_CTRL).toNat 0

/-- The channel passes over this item for the present: a packet without room whose instance drops (R392). -/
def State.itemPassed (s : State) (x : ChItem) : Bool :=
  !x.byp && (s.inst x.inst).ringWaits && tb ((s.inst x.inst).reg O.STR_CTRL).toNat 0

/-- A packet's number in the order of its channel (R392). -/
def Packet.turn (p : Packet) : Nat := p.left.getD p.seq

/-- The items of mover channel k in order of completion, a packet that was left behind in its later place (R392, R490). -/
def State.chItems (s : State) (k : Nat) : List ChItem :=
  let all := s.insts.flatMap fun e =>
    if e.1 % 16 ≠ k then [] else
    (match e.2.nextPacket with
      | some p => if p.slot < 4 then [⟨p.turn, e.1, false⟩] else []
      | none => [])
    ++ (match e.2.vf.bypQ with | b :: _ => [⟨b.seq, e.1, true⟩] | [] => [])
  all.foldr (fun (x : ChItem) l => l.takeWhile (fun y : ChItem => decide (y.seq < x.seq)) ++ x
    :: l.dropWhile (fun y : ChItem => decide (y.seq < x.seq))) []

/-- The item that mover channel k comes to (R392). -/
def State.chHead (s : State) (k : Nat) : Option ChItem := (s.chItems k).find? fun x => !s.itemPassed x

/-- The packet that comes next is left behind, with number q (R392). -/
def Inst.leaveNext (i : Inst) (q : Nat) : Inst :=
  { i with packets := i.packets.map fun p => if i.nextPacket = some p then { p with left := some q } else p }

/-- The channel takes item x: the packets that it passed over to come to it go behind every other item that is ready now (R392). -/
def State.passOver (s : State) (k : Nat) (x : ChItem) : State :=
  ((s.chItems k).takeWhile fun y => y != x).foldl (fun s y =>
    ({ s with eng := { s.eng with seq := s.eng.seq + 1 } } : State).modInst y.inst (·.leaveNext s.eng.seq)) s

/-- The item at which mover channel k waits (R392): RING_BLOCKED and INSTANCE of HST_MV_CH_STATUS. -/
def State.chBlocked (s : State) (k : Nat) : Option Nat :=
  match (s.chItems k).find? fun x => !x.byp && !s.itemPassed x with
  | some x => if s.itemWaits x then some x.inst else none
  | none => none

/-- Replace bytes of a list from an offset. -/
def patch (l : List Byte) (o : Nat) (d : List Byte) : List Byte := l.take o ++ d ++ l.drop (o + d.length)

/-- A packet as it is moved: DROPPED, GAP and FAULT put in, and the header's CRC with them (R233, R250, R255). -/
def movedBytes (b : List Byte) (dropped : Nat) (bad : Bool) : List Byte :=
  let marks := Nat.lor (Nat.lor (field b 0x20 4) (if dropped = 0 then 0 else 16)) (if bad then 256 else 0)
  let b := patch (patch b 0x1D (leBytes 1 dropped)) 0x20 (leBytes 4 marks)
  patch b 0x3C (leBytes 4 (crc32 (b.take 0x3C)))

/-- Send a packet's bytes to the stream ring (R480). -/
def State.sendPacket (s : State) (n : Nat) (b : List Byte) : State :=
  let v := (s.inst n).vf
  let p := v.devPtr 3
  let room := (v.ringLen 3 - p) * 64
  let s := s.send (.write (n + 1) (v.ringAddr 3 p) (b.take room))
  let s := if room < b.length then s.send (.write (n + 1) (v.ringAddr 3 0) (b.drop room)) else s
  s.modVf n fun v => v.advance 3 (b.length / 64)

/-- The checks of the Whistle on a packet as it is read (R255, R257): CORRUPT, and FREEZE. -/
def Inst.whistleCheck (i : Inst) (p : Packet) (b : List Byte) : Bool × Bool :=
  let corrupt := field b 0x3C 4 != crc32 (b.take 0x3C) || field b 0x30 4 != crc32 (b.drop 0x40)
  let frame := field b 8 8
  let freeze := match (if p.first then none else i.hist) with
    | none => false
    | some (f, sig) => decide (frame ≤ f) || (i.dropped == 0 && frame == f + 1 && sig == field b 0x28 4)
  (corrupt, freeze)

/-- A mover moves a complete packet (R249, R252, R255, R392, R480). -/
def State.movePacket (s : State) (n : Nat) (p : Packet) : State :=
  let i := s.inst n
  let b := getBytes s.hbm (i.slotAt p.slot) p.total
  let s := s.readChecked n .hbm (i.slotAt p.slot) p.total
  let (corrupt, freeze) := i.whistleCheck p b
  let sig := field b 0x28 4
  let frame := field b 8 8
  let out := movedBytes b i.dropped corrupt
  let tag := i.vf.devPtr 3
  let s := s.sendPacket n out
  let s := (s.complete n 1 0 tag frame p.total (field out 0x20 4) 0).getD s
  let i := s.inst n
  let i : Inst := { i with
    hist := if p.fault then none else some (frame, sig), dropped := 0
    packets := i.packets.map fun q => if q = p then { q with moved := true } else q }
  let i := ((i.seenFrame p.frame).setReg O.STR_LAST_FRAME_LO (BitVec.ofNat 32 frame)).setReg O.STR_LAST_FRAME_HI
    (BitVec.ofNat 32 (frame / 2 ^ 32))
  let s := ((s.setInst n i).setPf (O.STR_SIG + 16 * n) (BitVec.ofNat 32 sig)).releaseSlots n
  let s := if corrupt then (s.whistle n 1).foundFault n 7 frame else s
  if freeze then (s.whistle n 0).foundFault n 6 frame else s

/-- PACKET_MOVE (R249, R392): the mover channel of instance n comes to its packet, and the packet's ring has room. -/
def execPacketMove (n : Nat) (s : State) : Result :=
  match s.chHead (n % 16), (s.inst n).nextPacket with
  | some x, some p =>
    if s.hbmToHost && x == ⟨p.turn, n, false⟩ && (s.inst n).vf.streamRoom p.total then
      fin ((s.passOver (n % 16) x).movePacket n p)
    else fin s
  | _, _ => fin s

/-- WHISTLE_WATCHDOG_EXPIRE (R256): the oldest watchdog of instance n expires; it does not run while the instance waits for a
slot. -/
def execWhistleWatchdogExpire (n : Nat) (s : State) : Result :=
  let i := s.inst n
  let stalled := i.claimDue.isSome && (s.claimSlot n).isNone
  match i.whDue with
  | f :: r =>
    if stalled || i.rung ≠ .playing then fin s
    else fin (((s.setInst n { i with whDue := r }).whistle n 0).foundFault n 6 f)
  | [] => fin s

/-- The bytes of an AUDIO ring entry (R481). -/
def audioEntry (b : BypBlock) (lost seq phase : Nat) : List Byte :=
  leBytes 8 b.first ++ leBytes 4 lost ++ List.replicate 52 0 ++ audioBytes b.data ++ List.replicate 56 0
    ++ leBytes 8 (seq % 32768 * 2 + phase)

/-- BYPASS_BLOCK_MOVE (R296, R392, R397, R481): the mover channel of instance n comes to its oldest bypass block, which is written,
or dropped where the ring has no room; while the channel waits the block is dropped, and while the PCIe link is off it is kept. -/
def execBypassBlockMove (n : Nat) (s : State) : Result :=
  let v := (s.inst n).vf
  match v.bypQ, s.chHead (n % 16) with
  | b :: r, some x =>
    let mine := x == ⟨b.seq, n, true⟩
    if (!mine && !s.itemWaits x) || !s.host.linkUp || !s.powered 14 || s.isDraining 14 then fin s else
    let s := (if mine then s.passOver (n % 16) x else s).modVf n fun v => { v with bypQ := r }
    if !mine || v.ringRoom 4 = 0 then
      fin (s.modVf n fun v => { v.modReg O.HST_VF_DROPS fun w => countUp w 31 16 1 with bypLost := min (2 ^ 32 - 1) (v.bypLost + 1) })
    else
      let seq := v.seqs.getD 4 0 + 1
      let data := audioEntry b v.bypLost seq (b2n (v.phases.getD 4 true))
      let s := s.send (.write (n + 1) (v.ringAddr 4 (v.devPtr 4)) data)
      fin ((s.modVf n fun v => { v.advance 4 1 with seqs := v.seqs.set 4 seq, bypLost := 0 }).vfMsix n 1)
  | _, _ => fin s

end Sys2Proof.Machine
end

