-- ==== Sys2Proof/Machine/UnitRows.lean ====
section
/-! DEFINITION. The commands of the self-tests of units (01_architecture.md, R20 to R23; 17_safety.md, R526 to R528). -/
namespace Sys2Proof.Machine

/-- A failed test of a unit: an error record, and source UNIT_RETIRED (R527, R536). -/
def State.testFailed (s : State) (kind k : Nat) : State := (s.addRec 5 0 0xFFFF (unitWord kind k) 0).chipEvent 18

/-- The lines that wait at compressor g go to another compressor of their group (R527). -/
def State.moveLines (s : State) (g : Nat) : State :=
  let to' (q : CmpJob) : CmpJob :=
    if q.set ≠ g then q
    else { q with set := ((List.range 4).find? fun h => tb (s.groupSets q.inst) h && !s.unitGone 1 h).getD g }
  { s with eng := { s.eng with cmpQ := s.eng.cmpQ.map to' } }

/-- The instances of a group whose compressors are all retired take cause UNIT_LOST (R527). -/
def State.groupLost (s : State) (g : Nat) : State :=
  s.insts.foldl (fun s e =>
    let sets := s.groupSets e.1
    if e.2.adm.state = 2 && tb sets g && (List.range 4).all fun h => !tb sets h || s.unitGone 1 h
    then s.foundFault e.1 0x0C 0 else s) s

/-- A unit of kind 0 to 4 fails its test (R527). -/
def State.unitFails (s : State) (kind k : Nat) : State :=
  match kind with
  | 0 => (s.pfOr O.SAF_UNITS (2 ^ k)).testFailed 0 k
  | 1 => (((s.pfOr O.SAF_UNITS (2 ^ (28 + k))).testFailed 1 k).moveLines k).groupLost k
  | 2 => (s.pfOr O.SAF_UNITS (2 ^ (20 + k))).testFailed 2 k
  | 3 => s.retireCore k 5
  | _ => (s.testFailed 4 k).foundChip 10 0

/-- The requested test changes its state (R528, R540): 0 idle, 1 queued, 2 running, 3 deferred. -/
def State.setTest (s : State) (t : Option TestSt) : State :=
  let st := match t with | some t => t.state | none => 0
  (({ s with safety := { s.safety with test := t } } : State).pfSet O.SAF_TEST_STATUS 25 24 st).pfSet O.SAF_TEST_STATUS 31 31
    (b2n (decide (st ≠ 0)))

/-- The requested test ends with a RESULT (R528, R537, R540). -/
def State.endTest (s : State) (result : Nat) : State := ((s.setTest none).pfSet O.SAF_TEST_STATUS 1 0 result).chipEvent 17

/-- The test of the renderer out of service in set g starts or has ended. -/
def State.setTesting (s : State) (g : Nat) (on : Bool) : State :=
  { s with safety := { s.safety with testing := s.safety.testing.set g on } }

/-- The compressor of set g is tested at a swap instant of its set, with its input held (R526); `pass` is its verdict. -/
def State.cmpTested (s : State) (g : Nat) (pass : Bool) : State := if s.unitGone 1 g || pass then s else s.unitFails 1 g

/-- Renderer j of set g leaves, the one that was out rejoins, and the test of the leaver starts (R22, R526); the set's compressor is
tested. A requested test that was deferred to this departure runs with it (R528). -/
def State.swapOut (s : State) (g j : Nat) (pass : Bool) : State :=
  let s := (({ s with safety := { s.safety with rendOut := s.safety.rendOut.set g j } } : State).setTesting g true).cmpTested g pass
  match s.safety.test with
  | some t => if t.kind = 0 && t.state = 3 && t.index = 5 * g + j then s.setTest (some { t with state := 2 }) else s
  | none => s

/-- RENDERER_ROTATION (R22, R526): in a set whose renderers are all healthy; a test that has not ended holds the swap back. -/
def execRendererRotation (g : Nat) (s : State) (pass : Bool := true) : Result :=
  if decide (g < 4) && s.boot.ready && s.powered (9 + g) && (s.setHealthy g).length = 5 && !s.safety.testing.getD g false then
    fin (s.swapOut g ((s.safety.rendOut.getD g 4 + 1) % 5) pass)
  else fin s

/-- The test of renderer k ends (R526 to R528). -/
def State.rendTested (s : State) (k : Nat) (pass : Bool) : State :=
  let asked := s.testOn 0 k
  let s := s.setTesting (k / 5) false
  let s := if pass then s else s.unitFails 0 k
  if asked then s.endTest (b2n !pass) else s

/-- RENDERER_TEST_DONE (R526). -/
def execRendererTestDone (g : Nat) (pass : Bool) (s : State) : Result :=
  match s.outOf g with
  | some k => if s.powered (9 + g) && s.safety.testing.getD g false then fin (s.rendTested k pass) else fin s
  | none => fin s

/-- Blit engine k sets its job aside and lets it go (R231, R526). -/
def State.blitAside (s : State) (k : Nat) : State :=
  match s.eng.blit.find? fun e => e.1 == k with
  | none => s
  | some e =>
    ({ s with eng := { s.eng with blit := s.eng.blit.filter fun x => x.1 != k } } : State).modCore e.2.1 fun c =>
      { c with blits := c.blits.map fun (j : BlitJob) => if j.seq = e.2.2 then { j with phase := .aside } else j }

/-- The blit engine whose test comes next: engines are tested in turn, those that are retired left out (R526, R527). -/
def State.blitTurn (s : State) : Option Nat := ((List.range 8).map fun k => (s.safety.blitNext + k) % 8).find? fun k => !s.unitGone 2 k

/-- BLIT_ENGINE_TEST (R526): the whole 50 us of a test of engine k, which stops with its domain (R504). -/
def execBlitEngineTest (k : Nat) (pass : Bool) (s : State) : Result :=
  if s.boot.ready && s.powered 0 && s.blitTurn = some k && !s.eng.inTest.contains k then
    let s := s.blitAside k
    let s : State := { s with safety := { s.safety with blitNext := (k + 1) % 8 } }
    fin (if pass then s else s.unitFails 2 k)
  else fin s

/-- CORE_TEST (R504, R526): the whole test of audit core k, which meets the mark of an undecided audit (R446). -/
def execCoreTest (k : Nat) (pass : Bool) (s : State) : Result :=
  if s.boot.ready && s.powered (coreDomain k) && s.auditCores.contains k then
    let s : State := { s with safety := { s.safety with coreMark := s.safety.coreMark.filter (· != k) } }
    fin (if pass then s else s.unitFails 3 k)
  else fin s

/-- The last unit of a KIND (R1, R399). -/
def lastUnit (kind : Nat) : Nat := [19, 3, 7, 65, 31].getD kind 0

/-- A write of SAF_TEST_REQ (R8, R528, R540): a GO write while BUSY is 1 is ignored. -/
def State.testRequest (s : State) (v : Word) : State :=
  let go := tb v.toNat 31
  if go && s.safety.test.isSome then s else
  let kind := if 4 < wbits v 10 8 then 0 else wbits v 10 8
  let index := min (wbits v 6 0) (lastUnit kind)
  let k := b2n (decide (4 < wbits v 10 8)) + b2n (decide (lastUnit kind < wbits v 6 0))
  let s := (s.setPf O.SAF_TEST_REQ (BitVec.ofNat 32 (kind * 256 + index))).pfCount O.SAF_CLAMP_COUNT 31 0 k
  if go then s.setTest (some { kind, index, state := 1 }) else s

/-- SAF_TEST_REQ (R528). -/
def execSafTestReq (v : Word) (s : State) : Result := fin (s.hostWrite .pf (.pf O.SAF_TEST_REQ) 4 v.toNat fun s => s.testRequest v)

/-- The unit of a requested test is retired already (R540). -/
def State.testRetired (s : State) (t : TestSt) : Bool :=
  match t.kind with
  | 0 | 1 | 2 => s.unitGone t.kind t.index
  | 3 => !s.coreOk t.index
  | _ => false

/-- The scrubber stands between two passes (R408, R409). -/
def State.scrubGap (s : State) : Bool := [1, 2, 3, 4].all s.powered && s.pfBits O.POOL_SCRUB_STATUS 12 0 == 0

/-- A march test of Pool bank group g has written its patterns to the test rows and to rows of free granules (R409): what these hold
then is a free value (`MemSt.marched`), and their words are stored clean. -/
def State.marched (s : State) (g : Nat) : State :=
  let keep (w : Nat) : Bool := w / 64 % 32 != g || decide (0x6000000 ≤ 8 * w) || (s.poolOwner (8 * w)).isSome
  { s with mem := { s.mem with
      marched := if s.mem.marched.contains g then s.mem.marched else g :: s.mem.marched
      poolCe := s.mem.poolCe.filter keep, poolUe := s.mem.poolUe.filter keep } }

/-- An error that a march test finds is recorded with FOUND_BY 0b10 (R411), at a free address in the bank group (DEDUCED, log entry
70). -/
def State.marchError (s : State) (g : Nat) : State :=
  let (w, s) := s.fresh
  s.eccUe ⟨.pool, w.toNat % 8192 * 2048 + g * 64 + w.toNat / 8192 % 64⟩ 2

/-- The domain of a unit is powered, so that its test may run (R500, R504). -/
def State.unitPowered (s : State) (kind k : Nat) : Bool :=
  match kind with
  | 0 => s.powered (9 + k / 5)
  | 1 => s.powered (9 + k)
  | 2 => s.powered 0
  | 3 => s.powered (coreDomain k)
  | _ => [1, 2, 3, 4].all s.powered

/-- A queued or deferred test starts when its unit is drained (R528): a core when none of its slots holds a Playing or Held instance,
a Pool bank group between scrub passes. `pass` is the verdict on the compressor of a set whose renderers swap for it (R526). -/
def State.testStart (s : State) (t : TestSt) (pass : Bool) : State :=
  let run (s : State) : State := s.setTest (some { t with state := 2 })
  if s.testRetired t then s.endTest 2
  else if !s.unitPowered t.kind t.index then s else
  match t.kind with
  | 0 =>
    let g := t.index / 5
    match s.outOf g with
    | some k =>
      if k = t.index then run (s.setTesting g true)
      else if t.state = 3 || s.safety.testing.getD g false then s
      else run (s.swapOut g (t.index % 5) pass)
    | none => run (s.setTesting g true)
  | 1 => run s
  | 2 => run (let s := s.blitAside t.index; { s with eng := { s.eng with inTest := t.index :: s.eng.inTest } })
  | 3 => if (s.insts.any fun e => e.2.servedBy == some t.index) || (t.state = 3 && !s.auditCores.contains t.index) then s else run s
  | _ => if s.scrubGap then run s else s

/-- TEST_START (R526, R528). -/
def execTestStart (s : State) (pass : Bool := true) : Result :=
  match s.safety.test with
  | some t => if t.state = 2 then fin s else fin (s.testStart t pass)
  | none => fin s

/-- TEST_DEFER (R528): renderers and cores alone are deferred. -/
def execTestDefer (s : State) : Result :=
  match s.safety.test with
  | some t => if t.state = 1 && (t.kind = 0 || t.kind = 3) then fin (s.setTest (some { t with state := 3 })) else fin s
  | none => fin s

/-- The march test of Pool bank group g has ended (R409, R411, R527). -/
def State.poolTested (s : State) (g : Nat) (pass : Bool) : State :=
  if pass then s.marched g else ((s.marched g).marchError g).unitFails 4 g

/-- TEST_DONE (R527, R528). -/
def execTestDone (pass : Bool) (s : State) : Result :=
  match s.safety.test with
  | some t =>
    if t.state ≠ 2 || !s.unitPowered t.kind t.index then fin s
    else if t.kind = 0 then fin (s.rendTested t.index pass)
    else
      let s : State := { s with eng := { s.eng with inTest := if t.kind = 2 then s.eng.inTest.filter (· != t.index) else s.eng.inTest } }
      let s := if t.kind < 4 then (if pass then s else s.unitFails t.kind t.index) else s.poolTested t.index pass
      fin (s.endTest (b2n !pass))
  | none => fin s

/-- POOL_SELF_TEST (R409, R526, R527): between scrub passes, while the Pool is powered. -/
def execPoolSelfTest (g : Nat) (pass : Bool) (s : State) : Result :=
  if decide (g < 32) && s.boot.ready && s.scrubGap then
    fin (s.poolTested g pass)
  else fin s

/-- CORE_PARITY_FAULT (R20, R529): the instances that core c serves take cause CORE_FAULT, and it retires at the next load. -/
def execCoreParityFault (c _p : Nat) (s : State) : Result :=
  if !s.coreOk c then fin s else
  fin ((s.insts.foldl (fun s e => if e.2.servedBy == some c then s.foundFault e.1 0x0B 0 else s) s).retireLater c)

end Sys2Proof.Machine
end

