-- ==== Sys2Proof/Machine/BootRows.lean ====
section
/-! DEFINITION. Power, reset and boot (18_pins_boot.md, R544, R545, R555 to R560; 15_host_interface.md, R462; 19_electrical.md,
R575), and the commands of the management mailbox (R561 to R563). -/
namespace Sys2Proof.Machine

/-- SEQ of a firmware copy (R557). -/
def fwSeq (b : List Byte) : Nat := field b 0x10 8

/-- A firmware copy is valid (R42, R43, R557): its header, of which BODY_SIZE is bound by the size of the copy alone (DEDUCED),
its hash, and a signature by the root key. -/
def fwValid (b : List Byte) : Bool :=
  field b 0 4 == 0x4957464B && field b 4 2 == 1 && field b 6 2 == 0x200 && bodySize b % 8 == 0
    && decide (512 + bodySize b ≤ min b.length 0x200000) && field b 0xC 2 == 0x8512 && field b 0xE 1 == 3 && field b 0xF 1 == 0
    && fwSeq b != 0 && imgKey b == 0xFF && decide (imgMask b ≤ 15) && field b 0x1C 4 == 0 && field b 0x110 240 == 0
    && decide (1 ≤ field b 0x1A 2) && decide (field b 0x1A 2 ≤ 32)
    && sha384 (imgBody b) == imgHash b && sha384 (imgPub b) == Config.rootKeyDigest && imgSigned b

/-- The copy that mask ROM boots: 0 A, 1 B, 3 none (R557, R562). -/
def State.fwChoice (s : State) : Nat :=
  let a := fwValid s.boot.copyA
  let b := fwValid s.boot.copyB
  if a && (!b || decide (fwSeq s.boot.copyB ≤ fwSeq s.boot.copyA)) then 0 else if b then 1 else 3

/-- Copy k of the firmware in the flash. -/
def State.fwCopy (s : State) (k : Nat) : List Byte := if k = 0 then s.boot.copyA else s.boot.copyB
/-- Replace it. -/
def State.setFwCopy (s : State) (k : Nat) (b : List Byte) : State :=
  { s with boot := if k = 0 then { s.boot with copyA := b } else { s.boot with copyB := b } }

/-- Log entries whose CRC fails are treated as never written (R78): those that are newest go, and SEQ goes back with them
(DESIGN CHOICE, log entry 31). -/
def State.dropTorn (s : State) : State :=
  let log := s.mram.log.dropWhile fun e => !e.sound
  { s with mram := { s.mram with log, head := s.mram.head - (s.mram.log.length - log.length) } }

/-- A FUSE_INTENT that is the newest entry as boot begins is settled (R78): FUSE_DONE where the fuses show the burn, and else
FUSE_REFUSED with cause NOT_BURNED. -/
def State.settleIntent (s : State) (e : Option LogEntry) : State :=
  match e with
  | none => s
  | some e =>
    if e.kind ≠ 4 then s else
    let now := if e.ofSeal then s.fuses.commits.length else fuseCount s.fuses e.arg
    if now = e.detail then s.logEntry 5 e.arg 0 now e.ofSeal else s.logEntry 6 e.arg 7 0 e.ofSeal

/-- Step 3 of boot: the self-test of every unit (R20, R526, R527, R558, R559). -/
def State.bootTests (s : State) (r : BootRun) : State :=
  let run (s : State) (kind m : Nat) : State :=
    loop (lastUnit kind + 1) (fun k s => if tb m k then s.unitFails kind k else s) s
  run (run (run (run (run s 0 r.renderers) 1 r.comps) 2 r.blits) 3 r.cores) 4 r.poolFail

/-- Step 4 of boot: the HBM trains, and the memories are zeroed (R558, R559). They are empty since the device reset. -/
def State.bootMemory (s : State) (r : BootRun) : State :=
  if r.hbmOk then (s.pfSet O.HBM_STATUS 31 31 1).pfSet O.CLK_STATUS 1 1 1 else s.foundChip 9 0

/-- Step 5 of boot (R77, R78, R412, R413, R536, R558). The device key is a free value: the manual does not say how it is derived. -/
def State.bootLog (s : State) (newest : Option LogEntry) : State :=
  let s := (((s.settleIntent newest).logEntry 8 0 0 0).addRec 7 0 0xFFFF 0xFFFF 0).wipe
  let (w, s) := s.fresh
  { s with vault := { s.vault.noStaging.noSecrets with secrets := { digests := s.fuses.keys, deviceKey := some w, shadows := some s.fuses } } }

/-- Header, hash and signature of image bytes verify (R67). -/
def imgVerifies (f : Fuses) (b : List Byte) : Bool :=
  checkHeader b == 0 && sha384 (imgBody b) == imgHash b && imgKeyKnown f b && imgSigned b

/-- VALID of every slot is evaluated at boot (R67). -/
def State.bootSlots (s : State) : State :=
  { s with mram := { s.mram with slots := s.mram.slots.map fun x => { x with valid := imgVerifies s.fuses x.image } } }

/-- Step 6 of boot: the sealed default is loaded as LOAD_SLOT would (R69), without its fuse requests. ELAPSED after it is a free
value: the manual gives that load no time of its own. -/
def State.bootImage (s : State) (r : BootRun) : State :=
  match s.sealed with
  | none => s
  | some c =>
    let x := s.slotAt c.slot
    if !r.hbmOk || !x.valid || imgId x.image ≠ c.id || (imgHash x.image).take 16 ≠ c.hash then s
    else
      let (w, s) := (s.loadImage x.image s.loadEnv c.slot 0 (s.pfBits O.CLK_STATUS 25 16)).fresh
      s.pfSet O.MGT_IMG_STATUS 7 0 (w.toNat % 256)

/-- Step 7 of boot (R558, R562), and a tamper assertion that came before it (R525, R544, R559). -/
def State.bootReady (s : State) (r : BootRun) : State :=
  let s : State := { s with boot := { s.boot with ready := true } }
  let s := (((s.pfSet O.MGT_BOOT_STATUS 31 28 (if s.boot.recovery then 8 else 7)).pfSet O.MGT_BOOT_STATUS 15 0 (min r.ms 65535)).pfOr
    O.MGT_MBX_M2H 2).chipEvent 177
  if s.safety.tamperNow.contains true then
    (({ s with vault := {}, safety := { s.safety with tamperNow := [false, false] } } : State).wipe).foundChip 7 0
  else s

/-- Boot (R558 to R560). In recovery steps 3, 4 and 6, which the firmware makes, are left out (DEDUCED). -/
def State.bootRun (s : State) (r : BootRun) : State :=
  let s := ({ s with boot := { s.boot with booting := false } } : State).tick (r.ms * 4800000)
  if tb s.pins.straps 2 then { s with boot := { s.boot with stopped := true } }
  else if !r.romOk then { s with boot := { s.boot with stopped := true }, safety := { s.safety with faultN := true } }
  else
    let s := s.dropTorn.bootSlots
    let newest := s.mram.log.head?
    let s : State := { s with mram := { s.mram with boots := s.mram.boots + 1 } }
    let s := s.pfOr O.CLK_STATUS 5
    let k := s.fwChoice
    if k = 3 then (({ s with boot := { s.boot with recovery := true } } : State).bootLog newest).bootReady r
    else
      let b := s.fwCopy k
      let s := (({ s with vault := { s.vault with firmware := b } } : State).pfSet O.MGT_BOOT_STATUS 25 24 k).setPf O.MGT_FW_SEQ
        (BitVec.ofNat 32 (fwSeq b))
      (((((s.pfOr O.CLK_STATUS 24).bootTests r).bootMemory r).bootLog newest).bootImage r).bootReady r

/-- BOOT (R558). -/
def execBoot (r : BootRun) (s : State) : Result := if s.boot.booting then fin (s.bootRun r) else fin s

/-- Out of reset, a high HPD input is taken as the change that it is from the register's reset value (R270, R537, R544). -/
def State.takeHpd (s : State) (k : Nat) : State :=
  if s.pins.hpd.getD k false then (s.pfSet (O.DPO_STATUS + 16 * k) 31 31 1).chipEvent (14 + k) else s

/-- Boot begins (R555, R558). -/
def State.startBoot (s : State) : State :=
  ((({ s with boot := { s.boot with perst := false, booting := true } } : State).pfSet O.MGT_BOOT_STATUS 31 28 1).takeHpd
    0).takeHpd 1

/-- What a loss of power takes beyond a device reset (R414, R536, R556). -/
def State.powerLost (s : State) : State :=
  let s := s.deviceReset
  ({ s with safety := {}, boot := { copyA := s.boot.copyA, copyB := s.boot.copyB, powered := false }, pins := { ext := s.pins.ext, sampled := s.pins.sampled, hpd := s.pins.hpd }
            } : State).setPf O.POOL_VAULT_STATUS 0

/-- COLD_POWER_UP (R545, R555): of a device without power. -/
def execColdPowerUp (straps : Nat) (s : State) : Result :=
  if s.boot.powered then fin s else
  let s := s.powerLost
  fin { s with boot := { s.boot with powered := true }, pins := { s.pins with straps := straps % 8 } }

/-- POWER_DOWN (R575): PERST# asserts, and the rails fall. -/
def execPowerDown (s : State) : Result := if s.boot.powered then fin s.powerLost else fin s

/-- PERST_ASSERT (R542, R555). -/
def execPerstAssert (s : State) : Result := if s.boot.powered && !s.boot.perst then fin s.intoReset else fin s

/-- PERST_DEASSERT (R545, R558). -/
def execPerstDeassert (straps : Nat) (s : State) : Result :=
  if s.boot.powered && s.boot.perst then fin ({ s with pins := { s.pins with straps := straps % 8 } } : State).startBoot
  else fin s

/-- HOT_RESET (R462, R555): a device reset whatever the cause, and boot begins at once. -/
def execHotReset (_ : ResetCause) (s : State) : Result :=
  if s.boot.powered && !s.boot.perst && s.host.linkUp then fin s.deviceReset.startBoot else fin s

/-- A write of MGT_MBX_CMD (R8, R562): the arguments are those at the write (DESIGN CHOICE). -/
def State.mbxCmd (s : State) (v : Word) : State :=
  let op := wbits v 31 28
  if op = 0 || s.boot.mbx.isSome then s
  else if 3 < op then s.pfCount O.MGT_MBX_CLAMP_COUNT 31 0 1
  else
    let args := (List.range 4).map fun k => (s.pf (O.MGT_MBX_ARG + 4 * k)).toNat
    ({ s with boot := { s.boot with mbx := some (op :: args) } } : State).pfSet O.MGT_MBX_STATUS 31 31 1

/-- A mailbox command ends (R562, R563). -/
def State.mbxEnd (s : State) (result : Nat) : State :=
  ((({ s with boot := { s.boot with mbx := none } } : State).setPf O.MGT_MBX_STATUS (BitVec.ofNat 32 result)).pfOr O.MGT_MBX_M2H
    1).chipEvent 176

/-- The arguments of the mailbox command that runs, if it is `op`. -/
def State.mbxRuns (s : State) (op : Nat) : Option (List Nat) :=
  match s.boot.mbx with
  | some (o :: args) => if o = op then some args else none
  | _ => none

/-- FW_INFO (R563). -/
def execFwInfo (s : State) : Result :=
  match s.mbxRuns 1 with
  | none => fin s
  | some _ =>
    let q (b : List Byte) : Word := BitVec.ofNat 32 (if fwValid b then fwSeq b else 0)
    fin ((((s.setPf O.MGT_MBX_RSP (q s.boot.copyA)).setPf (O.MGT_MBX_RSP + 4) (q s.boot.copyB)).setPf (O.MGT_MBX_RSP + 8)
      (BitVec.ofNat 32 s.mram.boots)).mbxEnd 0)

/-- The target of a mailbox command is the copy running, outside recovery (R563). -/
def State.fwProtected (s : State) (k : Nat) : Bool := !s.boot.recovery && s.pfBits O.MGT_BOOT_STATUS 25 24 == k

/-- FLASH_WRITE (R563): `copy` and `again` are what the host's memory answers in the first and in the second pass; a wipe of the Vault holds it back (R413); and
`readBack` tells whether the target reads back as it was programmed. -/
def execFlashWrite (copy again : Option (List Byte)) (readBack : Bool) (s : State) : Result :=
  match s.mbxRuns 2 with
  | none => fin s
  | some args =>
    let k := args.getD 2 0
    let len := args.getD 3 0
    if 0x200000 < len || decide (1 < k) || args.getD 0 0 % 8 ≠ 0 then fin (s.mbxEnd 1)
    else if s.fwProtected k then fin (s.mbxEnd 2)
    else if !s.pfTraffic || s.vault.wipeEnd then fin s
    else match copy with
      | none => fin (s.mbxEnd 4)
      | some b =>
        let b := b.take len
        if !fwValid b then fin (s.mbxEnd 3) else
        let s := s.setFwCopy k []
        match again with
        | none => fin (s.mbxEnd 4)
        | some c =>
          let c := c.take len
          let s : State := { s with vault := { s.vault.stored 0 0x20000 with staging := c.drop ((len - 1) / 1048576 * 1048576) } }
          if sha384 ((c.drop 512).take (bodySize b)) ≠ imgHash b || !readBack then fin (s.mbxEnd 5)
          else fin ((s.setFwCopy k c).mbxEnd 0)

/-- FLASH_ERASE (R563). -/
def execFlashErase (s : State) : Result :=
  match s.mbxRuns 3 with
  | none => fin s
  | some args =>
    let k := args.getD 2 0
    if 1 < k then fin (s.mbxEnd 1)
    else if s.fwProtected k then fin (s.mbxEnd 2)
    else fin ((s.setFwCopy k []).mbxEnd 0)

end Sys2Proof.Machine
end

