-- ==== Sys2Proof/Machine/CartRows.lean ====
section
/-! DEFINITION. The commands of the Extent Table and the leaf cache (13_memory.md, R421 to R430). -/
namespace Sys2Proof.Machine

/-- WRITE (R429). -/
def execExtWrite (s : State) : Result := fin s.extWrite
/-- READ (R429). -/
def execExtRead (s : State) : Result := fin s.extRead
/-- FLUSH (R426, R429). -/
def execExtFlush (s : State) : Result := fin s.extFlush
/-- DROP (R429). -/
def execExtDrop (s : State) : Result := fin s.extDrop
/-- EXT_SPAN_WRITE (R430): the registers are reachable from the PF only (R428). -/
def execExtSpanWrite (p : Path) (n : Nat) (count : Bool) (v : Word) (s : State) : Result :=
  if p = .pf && decide (n < 512) then
    fin (s.hostWrite .pf (.pf ((if count then O.EXT_SPAN_COUNT else O.EXT_SPAN_FIRST) + 8 * n)) 4 v.toNat fun s => s.extSpan n count v)
  else fin s

/-- The missing leaf that an access of a thread through a segment waits for (R423 to R425). -/
def State.segLeaf (s : State) (n seg o len rights : Nat) (fetch : Bool) : Option (Nat × Nat) :=
  match s.segAt n seg o len rights fetch false with
  | .ok (1, a) => match s.cartAt n a (tb rights 1) with
    | .leaf e l _ => if (s.leaf? e l).isNone then some (e, l) else none
    | _ => none
  | _ => none

/-- The rights and length of a long memory word by its OP (R314). -/
def memRights (op : Nat) : Option (Nat × Nat) :=
  match op with
  | 0x10 | 0x11 => some (rightR, 1)
  | 0x12 | 0x13 => some (rightR, 2)
  | 0x14 => some (rightR, 4)
  | 0x15 => some (rightR, 8)
  | 0x16 | 0x17 => some (rightR + rightW, 4)
  | 0x18 => some (rightW, 1)
  | 0x19 => some (rightW, 2)
  | 0x1A => some (rightW, 4)
  | 0x1B => some (rightW, 8)
  | _ => none

/-- The missing leaf that a short instruction waits for (R317). -/
def State.shortLeaf (s : State) (n t sh : Nat) : Option (Nat × Nat) :=
  let sop := bits sh 14 10
  let o := (s.gr n t (bits sh 4 0)).toNat
  match sop with
  | 0x1A => s.segLeaf n 1 o 4 rightR false
  | 0x1B => s.segLeaf n 1 o 4 rightW false
  | 0x1C => s.segLeaf n 3 o 4 rightR false
  | 0x1D => s.segLeaf n 3 o 4 rightW false
  | _ => none

/-- The missing leaf that thread t's next word waits for: its fetch, or an access of the word. -/
def State.wordLeaf (s : State) (n t stamp : Nat) : Option (Nat × Nat) :=
  let x := (s.core n).thread t
  match s.segLeaf n 0 (x.pc.toNat / 4 * 4) 4 rightX true with
  | some e => some e
  | none => match s.fetch n t stamp with
    | .ok w s =>
      if tb w 31 then
        let a := s.shortLeaf n t (bits w 30 16)
        if tb x.pc.toNat 1 then s.shortLeaf n t (bits w 14 0)
        else if a.isSome then a
        else match s.short n t stamp (bits w 30 16) false 0 with
          | .ok (s, _) => s.shortLeaf n t (bits w 14 0)
          | .error _ => none
      else match memRights (bits w 31 25) with
        | some (r, len) => let f := fmtM w; s.segLeaf n f.seg (memOffset f (s.gr n t f.ga)) len r false
        | none => none
    | _ => none

/-- The missing leaf that instance n waits for, in the event whose turn it is or in a restore under way (R424, R436). -/
def State.leafAwaited (s : State) (n : Nat) : Option (Nat × Nat) :=
  match s.rungRuns n 7 with
  | some c => s.undoLeaf n c.back
  | none =>
  match (s.inst n).turn with
  | some (k, .thread t) =>
    if ((s.core n).thread t).waiting || (s.core n).eligible t ≠ 0 then none else s.wordLeaf n t (keyStamp k)
  | some (k, .dmaRead) => match s.dmaBeat n (keyStamp k) with | .wait e l => some (e, l) | _ => none
  | some (k, .blitRead) => match s.blitBeat n (keyStamp k) with | .wait e l => some (e, l) | _ => none
  | some (_, .beat) => (s.core n).nextBeat.bind fun b => s.beatLeaf n b
  | some (k, .micro) => match (s.core n).micro with
    | x :: _ => s.effectLeaf n k x.2
    | [] => none
  | _ => none

/-- A held beat cannot land, since its leaf could not be fetched (R225, R389, R425): it is lost, and at its write stamp its
transfer or job ends with HOST_ERR in place of what was to follow there. -/
def State.beatFailed (s : State) (n : Nat) (b : Beat) : State :=
  let t := b.stamp
  let s := s.modCore n fun c => { c with beats := c.beats.erase b }
  if b.dma then
    s.modCore n fun c =>
      let x := c.dma.getD b.unit {}
      if x.active && !x.checked then c else
      let a := ((b.data.map (·.1)).headD 0) - x.dv.base * 1024
      let c := { c with
        dma := c.dma.set b.unit { x with next := cdiv x.count 64 }
        micro := c.micro.filter fun m => match m.2 with | .dmaEnd k _ _ _ => !(k == b.unit && keyStamp m.1 == t) | _ => true }
      c.addMicro (keyOf t 1 1) (.dmaEnd b.unit 7 1 a)
  else
    (s.report n 0).modCore n fun c => match c.blits with
      | j :: r =>
        if j.seq ≠ b.unit then c else
        let c := { c with
          blits := { j with next := j.beats } :: r
          micro := c.micro.filter fun m => match m.2 with | .blitEnd _ | .blitWm _ => keyStamp m.1 != t | _ => true }
        c.addMicro (keyOf t 1 1) (.blitEnd 5)
      | [] => c

/-- A leaf move failed for instance n, which waits for the leaf (R425): LEAF_FAIL sets, and the waiting access fails. A restore goes
on waiting, for a later move (log entry 68). -/
def State.leafFailed (s : State) (n e l : Nat) : State :=
  let s := s.extFault n 3
  match (s.inst n).turn with
  | some (_, .thread _) => s.foundFault n 5 (e * 0x1000000 + l * 65536)
  | some (k, .dmaRead) => (s.dmaHostErr n (keyStamp k) e l).modCore n fun c => c.passed k
  | some (k, .blitRead) => match (s.core n).blits with
    | j :: _ => ((s.report n 0).blitAfter n (keyStamp k) j none (some 5)).modCore n fun c => c.passed k
    | [] => s
  | some (_, .beat) => match (s.core n).nextBeat with
    | some b => s.beatFailed n b
    | none => s
  | some (k, .micro) => match (s.core n).micro with
    | x :: _ => match (s.core n).toldBeat (keyStamp k) x.2 with
      | some b => s.beatFailed n b
      | none => s
    | [] => s
  | _ => s

/-- The instances that wait for a leaf (R424). -/
def State.leafWaiters (s : State) (e l : Nat) : List Nat :=
  (s.insts.map (·.1)).filter fun n => s.leafAwaited n == some (e, l)

/-- A LEAF move ends (R424, R425): its leaf takes a frame, or the accesses that wait for it fail; the instances go on. -/
def State.leafMoved (s : State) (e l : Nat) (content : Option (List Byte)) : State :=
  match content with
  | some d => (s.leafWaiters e l).foldl (fun s n => s.settle n) (s.putLeaf e l d)
  | none => (s.leafWaiters e l).foldl (fun s n => (s.leafFailed n e l).settle n) s

/-- LEAF_MOVE (R424, R425): the leaf that instances wait for is read from host memory, none when the read failed. -/
def execLeafMove (extent leaf : Nat) (content : Option (List Byte)) (s : State) : Result :=
  if (s.leafWaiters extent leaf).isEmpty || !s.leafMissing extent leaf || !s.pfTraffic then fin s
  else fin (s.leafMoved extent leaf content)

/-- FETCH (R425, R429): the missing leaves in rising order take the contents given; a leaf without one is a failed move. The
leaves fetched stay, and the command ends with HOST_ERR if any move failed. -/
def execExtFetch (leaves : List (Option (List Byte))) (s : State) : Result :=
  match s.extRuns 5 with
  | none => fin s
  | some e =>
    let miss := ((List.range 256).filter fun l => s.leafMissing e l).zipIdx.map fun (l, k) => (l, (leaves[k]?).join)
    if (!s.pfTraffic || !s.workTurn s.mem.extSeq) && !miss.isEmpty then fin s
    else fin ((miss.foldl (fun s x => s.leafMoved e x.1 x.2) s).extEnd (if miss.any fun x => x.2.isNone then 4 else 0))

end Sys2Proof.Machine
end

