-- ==== Sys2Proof/Machine/CymalAlu.lean ====
section
/-! DEFINITION. The ALU functions of the Cymal set (10_cymal_isa.md, R315, R318 to R320), one meaning each over the shared forms. -/
namespace Sys2Proof.Machine

/-- ADD (R315): gd = ga + gb. -/
def execAdd (n t : Nat) (f : FmtR) (s : State) : Result :=
  fin (s.alu2 n t 0x00 f 1 (· + ·))

/-- SUB (R315): gd = ga - gb. -/
def execSub (n t : Nat) (f : FmtR) (s : State) : Result :=
  fin (s.alu2 n t 0x01 f 1 (· - ·))

/-- AND (R315): gd = ga AND gb. -/
def execAnd (n t : Nat) (f : FmtR) (s : State) : Result :=
  fin (s.alu2 n t 0x02 f 1 (· &&& ·))

/-- OR (R315): gd = ga OR gb. -/
def execOr (n t : Nat) (f : FmtR) (s : State) : Result :=
  fin (s.alu2 n t 0x03 f 1 (· ||| ·))

/-- XOR (R315): gd = ga XOR gb. -/
def execXor (n t : Nat) (f : FmtR) (s : State) : Result :=
  fin (s.alu2 n t 0x04 f 1 (· ^^^ ·))

/-- ANDN (R315): gd = ga AND NOT gb. -/
def execAndn (n t : Nat) (f : FmtR) (s : State) : Result :=
  fin (s.alu2 n t 0x05 f 1 (fun a b => a &&& ~~~ b))

/-- SHL (R319): Shift ga left by gb[7:0]. -/
def execShl (n t : Nat) (f : FmtR) (s : State) : Result :=
  fin (s.alu2 n t 0x06 f 1 (fun a b => aluShl a (shiftCount b)))

/-- SHR (R319): Shift ga right logically by gb[7:0]. -/
def execShr (n t : Nat) (f : FmtR) (s : State) : Result :=
  fin (s.alu2 n t 0x07 f 1 (fun a b => aluShr a (shiftCount b)))

/-- SAR (R319): Shift ga right arithmetically by gb[7:0]. -/
def execSar (n t : Nat) (f : FmtR) (s : State) : Result :=
  fin (s.alu2 n t 0x08 f 1 (fun a b => aluSar a (shiftCount b)))

/-- ROL (R319): Rotate ga left by gb[4:0]. -/
def execRol (n t : Nat) (f : FmtR) (s : State) : Result :=
  fin (s.alu2 n t 0x09 f 1 aluRol)

/-- ROR (R319): Rotate ga right by gb[4:0]. -/
def execRor (n t : Nat) (f : FmtR) (s : State) : Result :=
  fin (s.alu2 n t 0x0A f 1 aluRor)

/-- CMPEQ (R315): gd = (ga = gb). -/
def execCmpeq (n t : Nat) (f : FmtR) (s : State) : Result :=
  fin (s.alu2 n t 0x0B f 1 (fun a b => flag (a == b)))

/-- CMPNE (R315): gd = (ga != gb). -/
def execCmpne (n t : Nat) (f : FmtR) (s : State) : Result :=
  fin (s.alu2 n t 0x0C f 1 (fun a b => flag (a != b)))

/-- CMPLT (R315): Signed ga < gb. -/
def execCmplt (n t : Nat) (f : FmtR) (s : State) : Result :=
  fin (s.alu2 n t 0x0D f 1 (fun a b => flag (a.slt b)))

/-- CMPLTU (R315): Unsigned ga < gb. -/
def execCmpltu (n t : Nat) (f : FmtR) (s : State) : Result :=
  fin (s.alu2 n t 0x0E f 1 (fun a b => flag (a.ult b)))

/-- CMPLE (R315): Signed ga <= gb. -/
def execCmple (n t : Nat) (f : FmtR) (s : State) : Result :=
  fin (s.alu2 n t 0x0F f 1 (fun a b => flag (a.sle b)))

/-- CMPLEU (R315): Unsigned ga <= gb. -/
def execCmpleu (n t : Nat) (f : FmtR) (s : State) : Result :=
  fin (s.alu2 n t 0x10 f 1 (fun a b => flag (a.ule b)))

/-- MIN (R315): Signed minimum. -/
def execMin (n t : Nat) (f : FmtR) (s : State) : Result :=
  fin (s.alu2 n t 0x11 f 1 (fun a b => if a.slt b then a else b))

/-- MAX (R315): Signed maximum. -/
def execMax (n t : Nat) (f : FmtR) (s : State) : Result :=
  fin (s.alu2 n t 0x12 f 1 (fun a b => if a.slt b then b else a))

/-- MINU (R315): Unsigned minimum. -/
def execMinu (n t : Nat) (f : FmtR) (s : State) : Result :=
  fin (s.alu2 n t 0x13 f 1 (fun a b => if a.ult b then a else b))

/-- MAXU (R315): Unsigned maximum. -/
def execMaxu (n t : Nat) (f : FmtR) (s : State) : Result :=
  fin (s.alu2 n t 0x14 f 1 (fun a b => if a.ult b then b else a))

/-- MUL (R315): Low 32 bits of ga times gb. -/
def execMul (n t : Nat) (f : FmtR) (s : State) : Result :=
  fin (s.alu2 n t 0x15 f 2 (· * ·))

/-- MULH (R319): High 32 bits of the signed product. -/
def execMulh (n t : Nat) (f : FmtR) (s : State) : Result :=
  fin (s.alu2 n t 0x16 f 3 aluMulh)

/-- MULHU (R315): High 32 bits of the unsigned product. -/
def execMulhu (n t : Nat) (f : FmtR) (s : State) : Result :=
  fin (s.alu2 n t 0x17 f 3 aluMulhu)

/-- DIVS (R319): Signed divide, quotient to gd and remainder to g(d + 1). -/
def execDivs (n t : Nat) (f : FmtR) (s : State) : Result :=
  fin (s.aluDiv n t 0x18 f aluDivs)

/-- DIVU (R319): Unsigned divide, quotient and remainder. -/
def execDivu (n t : Nat) (f : FmtR) (s : State) : Result :=
  fin (s.aluDiv n t 0x19 f aluDivu)

/-- CARRY (R315): gd takes the carry out of ga + gb. -/
def execCarry (n t : Nat) (f : FmtR) (s : State) : Result :=
  fin (s.alu2 n t 0x1A f 1 (fun a b => flag (decide (2 ^ 32 ≤ a.toNat + b.toNat))))

/-- BORROW (R315): gd takes the borrow of ga - gb. -/
def execBorrow (n t : Nat) (f : FmtR) (s : State) : Result :=
  fin (s.alu2 n t 0x1B f 1 (fun a b => flag (a.ult b)))

/-- ADDS (R319): Saturating signed sum. -/
def execAdds (n t : Nat) (f : FmtR) (s : State) : Result :=
  fin (s.alu2 n t 0x1C f 1 (fun a b => aluSat (a.toInt + b.toInt)))

/-- SUBS (R319): Saturating signed difference. -/
def execSubs (n t : Nat) (f : FmtR) (s : State) : Result :=
  fin (s.alu2 n t 0x1D f 1 (fun a b => aluSat (a.toInt - b.toInt)))

/-- NEG (R319): gd = 0 - ga. -/
def execNeg (n t : Nat) (f : FmtR) (s : State) : Result :=
  fin (s.alu1 n t 0x20 f (fun a => 0 - a))

/-- NOT (R315): gd = NOT ga. -/
def execNot (n t : Nat) (f : FmtR) (s : State) : Result :=
  fin (s.alu1 n t 0x21 f (fun a => ~~~ a))

/-- ABS (R319): Absolute value of ga. -/
def execAbs (n t : Nat) (f : FmtR) (s : State) : Result :=
  fin (s.alu1 n t 0x22 f (fun a => if a.slt 0 then 0 - a else a))

/-- CLZ (R319): Count the leading zero bits of ga. -/
def execClz (n t : Nat) (f : FmtR) (s : State) : Result :=
  fin (s.alu1 n t 0x23 f aluClz)

/-- CTZ (R319): Count the trailing zero bits of ga. -/
def execCtz (n t : Nat) (f : FmtR) (s : State) : Result :=
  fin (s.alu1 n t 0x24 f aluCtz)

/-- POPC (R315): Count the one bits of ga. -/
def execPopc (n t : Nat) (f : FmtR) (s : State) : Result :=
  fin (s.alu1 n t 0x25 f aluPopc)

/-- PAR (R315): Parity of ga. -/
def execPar (n t : Nat) (f : FmtR) (s : State) : Result :=
  fin (s.alu1 n t 0x26 f aluPar)

/-- BREV (R315): Reverse the bits of ga. -/
def execBrev (n t : Nat) (f : FmtR) (s : State) : Result :=
  fin (s.alu1 n t 0x27 f aluBrev)

/-- BREV8 (R315): Reverse the bits within each byte of ga. -/
def execBrev8 (n t : Nat) (f : FmtR) (s : State) : Result :=
  fin (s.alu1 n t 0x28 f aluBrev8)

/-- BSWAP (R315): Reverse the bytes of ga. -/
def execBswap (n t : Nat) (f : FmtR) (s : State) : Result :=
  fin (s.alu1 n t 0x29 f aluBswap)

/-- SEXTB (R315): Sign-extend ga[7:0]. -/
def execSextb (n t : Nat) (f : FmtR) (s : State) : Result :=
  fin (s.alu1 n t 0x2A f (aluSext 8))

/-- SEXTH (R315): Sign-extend ga[15:0]. -/
def execSexth (n t : Nat) (f : FmtR) (s : State) : Result :=
  fin (s.alu1 n t 0x2B f (aluSext 16))

/-- ZEXTH (R315): Zero-extend ga[15:0]. -/
def execZexth (n t : Nat) (f : FmtR) (s : State) : Result :=
  fin (s.alu1 n t 0x2C f (fun a => a &&& 0xFFFF))

/-- CRC32B (R320): One CRC-32 step over a byte. -/
def execCrc32b (n t : Nat) (f : FmtR) (s : State) : Result :=
  fin (s.alu2 n t 0x30 f 1 aluCrc32b)

/-- CRC32W (R320): Four CRC-32 steps over the bytes of gb. -/
def execCrc32w (n t : Nat) (f : FmtR) (s : State) : Result :=
  fin (s.alu2 n t 0x31 f 2 aluCrc32w)

/-- CRC16B (R320): One CRC-16 step over a byte. -/
def execCrc16b (n t : Nat) (f : FmtR) (s : State) : Result :=
  fin (s.alu2 n t 0x32 f 1 aluCrc16b)

end Sys2Proof.Machine
end

