-- ==== Sys2Proof/Machine/CymalFlow.lean ====
section
/-! DEFINITION. Branches, jumps and pairs of the Cymal set (10_cymal_isa.md, R306 to R309, R314, R326 to R330). -/
namespace Sys2Proof.Machine

/-- BZ (R326): Branch if gc is zero. -/
def execBz (n t : Nat) (f : FmtB) (s : State) : Result :=
  fin (s.issue n t (isBr 0x20 f) fun _ _ _ s => s.branch n t f (s.gr n t f.gc == 0))

/-- BNZ (R326): Branch if gc is not zero. -/
def execBnz (n t : Nat) (f : FmtB) (s : State) : Result :=
  fin (s.issue n t (isBr 0x21 f) fun _ _ _ s => s.branch n t f (s.gr n t f.gc != 0))

/-- DBNZ (R326): Decrement gc and branch if the result is not zero. -/
def execDbnz (n t : Nat) (f : FmtB) (s : State) : Result :=
  fin (s.issue n t (isBr 0x22 f) fun _ _ _ s =>
    let v := s.gr n t f.gc - 1
    (s.setG n t f.gc v).branch n t f (v != 0))

/-- J (R326): Jump by disp25 words. -/
def execJ (n t : Nat) (f : FmtJ) (s : State) : Result :=
  fin (s.issue n t (isJmp 0x24 f) fun _ _ _ s =>
    .done 2 (dispTarget (s.wordAddr n t).toNat 25 f.disp) s)

/-- CALL (R326): Write the return address to g31 and jump. -/
def execCall (n t : Nat) (f : FmtJ) (s : State) : Result :=
  fin (s.issue n t (isJmp 0x25 f) fun _ _ _ s =>
    .done 2 (dispTarget (s.wordAddr n t).toNat 25 f.disp) (s.setG n t 31 (s.nextPc n t)))

/-- JALR (R326): Write the link to gd and jump to ga. -/
def execJalr (n t : Nat) (f : FmtI) (s : State) : Result :=
  fin (s.issue n t (isImm 0x26 f) fun _ _ _ s =>
    if f.imm ≠ 0 then .rsvBits s else .done 2 (s.gr n t f.ga) (s.setG n t f.gd (s.nextPc n t)))

/-- PAIR (R307): A pair word executes short instruction A and then B in one issue turn. -/
def execPair (n t : Nat) (f : FmtP) (s : State) : Result :=
  fin (s.issue n t (isPair f) fun stamp w half s => State.pairBody n t stamp w half s)

/-- RESERVED_OPCODE (R328): A word with a reserved OP, FN or SOP traps RSVD_OP. -/
def execReservedOpcode (n t : Nat) (w : Word) (s : State) : Result :=
  fin (s.issue n t (fun x => x == w.toNat && isReserved x) fun stamp x half s =>
    if tb x 31 then State.pairBody n t stamp x half s else .trap 0x01 0 0 1 false s)

end Sys2Proof.Machine
end

