-- ==== Sys2Proof/Machine/CymalImm.lean ====
section
/-! DEFINITION. The long immediate and register-move words of the Cymal set (10_cymal_isa.md, R314, R318, R319). -/
namespace Sys2Proof.Machine

/-- SEL (R314): gd takes ga if gc is not zero, else gb. -/
def execSel (n t : Nat) (f : FmtSel) (s : State) : Result :=
  fin (s.issue n t (isSel f) fun _ _ _ s =>
    if f.rsv ≠ 0 then .rsvBits s
    else .setReg s n t f.gd (if s.gr n t f.gc ≠ 0 then s.gr n t f.ga else s.gr n t f.gb) 1)

/-- LUI (R314): gd takes imm20 shifted left by 12. -/
def execLui (n t : Nat) (f : FmtU) (s : State) : Result :=
  fin (s.issue n t (isLui f) fun _ _ _ s => .setReg s n t f.gd (BitVec.ofNat 32 (f.imm * 4096)) 1)

/-- ADDI (R314): gd takes ga plus sign-extended imm15. -/
def execAddi (n t : Nat) (f : FmtI) (s : State) : Result :=
  fin (s.aluImm n t 0x04 f 1 fun a => a + immS f)

/-- ANDI (R314): gd takes ga AND zero-extended imm15. -/
def execAndi (n t : Nat) (f : FmtI) (s : State) : Result :=
  fin (s.aluImm n t 0x05 f 1 fun a => a &&& immZ f)

/-- ORI (R314): gd takes ga OR zero-extended imm15. -/
def execOri (n t : Nat) (f : FmtI) (s : State) : Result :=
  fin (s.aluImm n t 0x06 f 1 fun a => a ||| immZ f)

/-- XORI (R314): gd takes ga XOR zero-extended imm15. -/
def execXori (n t : Nat) (f : FmtI) (s : State) : Result :=
  fin (s.aluImm n t 0x07 f 1 fun a => a ^^^ immZ f)

/-- CMPEQI (R314): gd takes 1 if ga equals sign-extended imm15. -/
def execCmpeqi (n t : Nat) (f : FmtI) (s : State) : Result :=
  fin (s.aluImm n t 0x08 f 1 fun a => flag (a == immS f))

/-- CMPNEI (R314): gd takes 1 if ga differs from sign-extended imm15. -/
def execCmpnei (n t : Nat) (f : FmtI) (s : State) : Result :=
  fin (s.aluImm n t 0x09 f 1 fun a => flag (a != immS f))

/-- CMPLTI (R314): gd takes the signed compare of ga below the immediate. -/
def execCmplti (n t : Nat) (f : FmtI) (s : State) : Result :=
  fin (s.aluImm n t 0x0A f 1 fun a => flag (a.slt (immS f)))

/-- CMPLTUI (R314): gd takes the unsigned compare of ga below the immediate. -/
def execCmpltui (n t : Nat) (f : FmtI) (s : State) : Result :=
  fin (s.aluImm n t 0x0B f 1 fun a => flag (a.ult (immS f)))

/-- SHLI (R319): gd takes ga shifted left by imm15[7:0]. -/
def execShli (n t : Nat) (f : FmtI) (s : State) : Result :=
  fin (s.shiftImm n t 0x0C f aluShl)

/-- SHRI (R319): gd takes ga shifted right logically by the immediate count. -/
def execShri (n t : Nat) (f : FmtI) (s : State) : Result :=
  fin (s.shiftImm n t 0x0D f aluShr)

/-- SARI (R319): gd takes ga shifted right arithmetically by the immediate count. -/
def execSari (n t : Nat) (f : FmtI) (s : State) : Result :=
  fin (s.shiftImm n t 0x0E f aluSar)

/-- MULI (R314): gd takes the low 32 bits of ga times the sign-extended immediate. -/
def execMuli (n t : Nat) (f : FmtI) (s : State) : Result :=
  fin (s.aluImm n t 0x0F f 2 fun a => a * immS f)

end Sys2Proof.Machine
end

