-- ==== Sys2Proof/Machine/CymalMem.lean ====
section
/-! DEFINITION. Loads, stores and atomics of the Cymal set (10_cymal_isa.md, R314, R321 to R324). -/
namespace Sys2Proof.Machine

/-- LB (R321): Load a sign-extended byte through segment s. -/
def execLb (n t : Nat) (f : FmtM) (s : State) : Result :=
  fin (s.loadWord n t 0x10 1 f (fun v => BitVec.ofInt 32 (sext 8 v)))

/-- LBU (R321): Load a zero-extended byte. -/
def execLbu (n t : Nat) (f : FmtM) (s : State) : Result :=
  fin (s.loadWord n t 0x11 1 f (BitVec.ofNat 32))

/-- LH (R321): Load a sign-extended halfword. -/
def execLh (n t : Nat) (f : FmtM) (s : State) : Result :=
  fin (s.loadWord n t 0x12 2 f (fun v => BitVec.ofInt 32 (sext 16 v)))

/-- LHU (R321): Load a zero-extended halfword. -/
def execLhu (n t : Nat) (f : FmtM) (s : State) : Result :=
  fin (s.loadWord n t 0x13 2 f (BitVec.ofNat 32))

/-- LW (R321): Load a 32-bit word. -/
def execLw (n t : Nat) (f : FmtM) (s : State) : Result :=
  fin (s.loadWord n t 0x14 4 f (BitVec.ofNat 32))

/-- LD (R321): Load 8 bytes into gd and g(d + 1). -/
def execLd (n t : Nat) (f : FmtM) (s : State) : Result :=
  fin (s.issue n t (isMem 0x15 f) fun stamp _ _ s =>
    if f.gd % 2 = 1 then .rsvBits s else
    match s.load n t stamp f.seg (memOffset f (s.gr n t f.ga)) 8 with
    | .ok v s => .setReg (s.setG n t f.gd (BitVec.ofNat 32 v)) n t (f.gd + 1) (BitVec.ofNat 32 (v / 2 ^ 32)) 3
    | .trap c a => .trap c f.seg a 1 false s
    | .stall full => .stall full t
    | .ue x => .ue x)

/-- AADD (R324): Atomically add gd to a word and return the old value. -/
def execAadd (n t : Nat) (f : FmtM) (s : State) : Result :=
  fin (s.atomicWord n t 0x16 f (· + ·))

/-- ASWP (R324): Atomically swap gd with a word. -/
def execAswp (n t : Nat) (f : FmtM) (s : State) : Result :=
  fin (s.atomicWord n t 0x17 f fun _ d => d)

/-- SB (R321): Store a byte. -/
def execSb (n t : Nat) (f : FmtM) (s : State) : Result :=
  fin (s.storeWord n t 0x18 1 f)

/-- SH (R321): Store a halfword. -/
def execSh (n t : Nat) (f : FmtM) (s : State) : Result :=
  fin (s.storeWord n t 0x19 2 f)

/-- SW (R321): Store a 32-bit word. -/
def execSw (n t : Nat) (f : FmtM) (s : State) : Result :=
  fin (s.storeWord n t 0x1A 4 f)

/-- SD (R321): Store gd and g(d + 1) as 8 bytes. -/
def execSd (n t : Nat) (f : FmtM) (s : State) : Result :=
  fin (s.issue n t (isMem 0x1B f) fun stamp _ _ s =>
    if f.gd % 2 = 1 then .rsvBits s else
    match s.store n t stamp f.seg (memOffset f (s.gr n t f.ga)) 8
        ((s.gr n t f.gd).toNat + (s.gr n t (f.gd + 1)).toNat * 2 ^ 32) with
    | .ok _ s => .done 2 (s.nextPc n t) s
    | .trap c a => .trap c f.seg a 1 false s
    | .stall full => .stall full t
    | .ue x => .ue x)

end Sys2Proof.Machine
end

