-- ==== Sys2Proof/Machine/CymalSys.lean ====
section
/-! DEFINITION. The SYS functions of the Cymal set, interrupt entry and the wake from WAIT (10_cymal_isa.md, R302, R303,
R316, R332 to R338; 11_interrupts_timers_events.md, R353 to R361). -/
namespace Sys2Proof.Machine

/-- Special register k of thread t, none for an unassigned index (R302). -/
def Inst.special (i : Inst) (t k : Nat) : Option Word :=
  let x := i.core.thread t
  match k with
  | 0 => some (BitVec.ofNat 32 ((if i.adm.slots = 4 then 2 else i.adm.slots - 1) * 4 + t))
  | 1 => some x.tstat
  | 2 => some (x.epc &&& 0xFFFFFFFE)
  | 3 => some x.trapInfo
  | 4 => some x.trapCause
  | 5 => some x.trapAddr
  | 6 => some x.scratch0
  | 7 => some x.scratch1
  | _ => none

/-- MTSR's write of special register k; an RO one ignores it (R303). -/
def Thread.setSpecial (x : Thread) (k : Nat) (v : Word) : Thread :=
  match k with
  | 2 => { x with epc := v &&& 0xFFFFFFFE }
  | 6 => { x with scratch0 := v }
  | 7 => { x with scratch1 := v }
  | _ => x

/-- The return from the innermost interrupt (R355), complete 3 vc after its stamp. -/
def Core.popInterrupt (c : Core) (t stamp : Nat) : Core :=
  c.addMicro (keyOf (stamp + 3) 5 t) (.endService t (c.thread t).stack.length)

/-- NOP (R316): Does nothing for 1 vc. -/
def execNop (n t : Nat) (f : FmtY) (s : State) : Result :=
  fin (s.sysWord n t 0x00 f false false false fun _ s => .done 1 (s.nextPc n t) s)

/-- WAIT (R360): The thread sleeps until a source that targets it is pending. -/
def execWait (n t : Nat) (f : FmtY) (s : State) : Result :=
  fin (s.sysWord n t 0x01 f false false false fun _ s =>
    .done 1 (s.nextPc n t) (s.modCore n fun c => c.modThread t fun x => { x with waiting := true }))

/-- IRET (R335): Return from a trap or from the innermost interrupt, or trap BAD_IRET. -/
def execIret (n t : Nat) (f : FmtY) (s : State) : Result :=
  fin (s.sysWord n t 0x02 f false false false fun stamp s =>
    let x := (s.core n).thread t
    if x.inTrap then .done 3 x.epc (s.modCore n fun c => c.modThread t fun x => { x with inTrap := false })
    else match x.stack with
      | [] => .trap 0x50 0 0 1 false s
      | e :: _ => .done 3 e.resume (s.modCore n fun c => c.popInterrupt t stamp))

/-- TRAP (R328): The software trap SWI enters vector 5. -/
def execTrap (n t : Nat) (f : FmtY) (s : State) : Result :=
  fin (s.sysWord n t 0x03 f false false true fun _ s => .trap 0x40 0 0 1 false s)

/-- MFSR (R303): Copy a special register into gd. -/
def execMfsr (n t : Nat) (f : FmtY) (s : State) : Result :=
  fin (s.sysWord n t 0x04 f true false true fun _ s =>
    match (s.inst n).special t f.sr with
    | some v => .setReg s n t f.gd v 1
    | none => .trap 0x03 0 0 1 false s)

/-- MTSR (R303): Copy ga into a special register. -/
def execMtsr (n t : Nat) (f : FmtY) (s : State) : Result :=
  fin (s.sysWord n t 0x05 f false true true fun _ s =>
    if 8 ≤ f.sr then .trap 0x03 0 0 1 false s
    else .done 2 (s.nextPc n t) (s.modCore n fun c => c.modThread t fun x => x.setSpecial f.sr (x.gr f.ga)))

/-- STOP (R338): The thread clears its own RUN bit and stops. -/
def execStop (n t : Nat) (f : FmtY) (s : State) : Result :=
  fin (s.sysWord n t 0x06 f false false false fun _ s =>
    .done 1 (s.nextPc n t) (s.modCore n fun c => c.modThread t fun x => { x with run := false }))

/-- INTERRUPT_ENTRY (R354): At a word boundary the highest eligible level is entered, pushing the resume point, in 4 vc. -/
def execInterruptEntry (n t : Nat) (s : State) : Result :=
  fin (s.eventOr n (.thread t) fun _ s =>
    let c := s.core n
    if (c.thread t).waiting || c.eligible t = 0 then none
    else some (s.modCore n fun c => c.enterInterrupt t (c.eligible t)))

/-- WAIT_WAKE (R360): A waiting thread wakes at the first stamp at which a source that targets it is pending. -/
def execWaitWake (n t : Nat) (s : State) : Result :=
  fin (s.eventOr n (.thread t) fun k s =>
    if ((s.core n).thread t).waiting then
      some (s.modCore n fun c => c.modThread t fun x => { x with waiting := false, pos := k })
    else none)

end Sys2Proof.Machine
end

