-- ==== Sys2Proof/Machine/EventRows.lean ====
section
/-! DEFINITION. The commands that are events of virtual time: timers, pulses, the mixer's samples, and the reads and landings of
the engines (R81, R220, R277, R363). -/
namespace Sys2Proof.Machine

/-- TIMER_TICK (R366): a prescaler tick of timer i. -/
def execTimerTick (n i : Nat) (s : State) : Result :=
  fin (s.event n (.tick i) fun t s => s.modCore n fun c =>
    ({ c with timNext := c.timNext.set i (some (t + bits (c.timCtrl i) 31 16 + 1)) } : Core).timTick i t)

/-- BEAM_TIMER_FIRE (R372). -/
def execBeamTimerFire (n i : Nat) (s : State) : Result :=
  fin (s.event n (.btim i) fun t s => s.modCore n fun c => c.btimFire i t)

/-- A pulse of source `src` at stamp t acts at the targets that its routes name (R376), or 3 vc later with THREE_FLOP
(R518). A target takes one pulse of a stamp. -/
def Core.emit (c : Core) (src t : Nat) (flop : Bool) : Core :=
  let to' := c.routed src
  let c : Core := { c with pulses := c.pulses.filter fun p => p != ⟨t, src, none⟩ }
  if flop then { c with pulses := c.pulses ++ to'.map fun k => ⟨t + 3, src, some k⟩ }
  else to'.foldl (fun c k => c.addMicro (keyOf t 2 (1 + k)) (.act k)) c

/-- EVENT_PULSE (R376): the pulse of source i whose stamp comes next. -/
def execEventPulse (n i : Nat) (s : State) : Result :=
  let flop := s.threeFlop n
  fin (s.event n (.pulse i none) fun t s => s.modCore n fun c => c.emit i t flop)

/-- THREE_FLOP_PULSE_ACTION (R518): a delayed pulse acts at target i, or is lost within 2 vc of the previous action there. -/
def execThreeFlopPulseAction (n i : Nat) (s : State) : Result :=
  match (s.inst n).turn with
  | some (_, .pulse src (some k)) =>
    if k ≠ i then fin s else
    fin (s.event n (.pulse src (some i)) fun t s =>
      let last := (s.core n).lastAct.get zeroAt i
      let lost := decide (0 < last) && decide (last < t) && decide (t ≤ last + 2)
      let s := s.modCore n fun c => { c with pulses := c.pulses.filter fun p => !(p.stamp == t && p.act == some i) }
      if lost then s.pfCount (O.CDC_INST_MODE + 4 * n) 31 16 1
      else s.modCore n fun c => ({ c with lastAct := c.lastAct.set zeroAt i t } : Core).evtAct i t)
  | _ => fin s

/-- What the mixer makes of the sample of instance n that begins at stamp t (R277, R284 to R295), from its work RAM and echo area. -/
def State.mixOut (s : State) (n t : Nat) : MixOut :=
  let c := s.core n
  let e := s.echoBase n
  let work (a : Nat) : Byte := (s.overWaiting n 2 t a [s.hbm.get zeroByte ((s.inst n).adm.workB + a)]).headD 0
  mixSample (fun o => (c.reg o).toNat) work (s.workSize n)
    (fun f => let b := getBytes s.hbm (e + 4 * f) 4
      { l := sext 16 (leNat (b.take 2)), r := sext 16 (leNat (b.drop 2)) }) c.mix

/-- The mixer's sample k of instance n, which begins at stamp t (R277, R284 to R296); the words that it reads are checked (R417). -/
def State.sampleStep (s : State) (n t : Nat) : State :=
  let out := s.mixOut n t
  let s := (s.eccSensed n .hbm (s.inst n).adm.workB (s.workSize n) 4 fun s _ => s.mixOut n t).eccSensed n .hbm (s.echoBase n) 262144 4
    fun s _ => s.mixOut n t
  let i := s.inst n
  let c := i.core
  let c : Core := { c with mix := out.st }
  let c := loop 16 (fun v c =>
    let o := O.AUD_V_CTRL + 64 * v
    let c := (c.setReg (o + 12) (BitVec.ofNat 32 (out.envs.getD v 0))).rSet o 31 31 (b2n (out.keys.getD v false))
    if tb out.ended v then c.pulse t (22 + v) else c) c
  let c := c.rOr O.AUD_STATUS (out.ended * 65536 + out.status)
  let block := out.st.bypBlk.length = 32 && out.st.bypN && i.catchUp.isNone
  let i : Inst := { i with
    core := c
    vf := if block then { i.vf with bypQ := i.vf.bypQ ++ [⟨s.eng.seq, out.st.next - 32, out.st.bypBlk⟩] } else i.vf }
  let i : Inst :=
    if i.catchUp.isSome then i
    else if i.builds.any fun b => b.frame == t / i.frameVc then
      { i with builds := i.builds.map fun b => if b.frame = t / i.frameVc then { b with audio := b.audio ++ [out.main] } else b }
    else { i with preAudio := i.preAudio ++ [out.main] }
  let s : State := { s.setInst n i with eng := { s.eng with seq := s.eng.seq + b2n block } }
  match out.echoWr with
  | some (p, x) => s.wrEcho n (4 * p) (audioBytes [x])
  | none => s

/-- AUDIO_SAMPLE (R284): voices, buses, filter, echo, ramps and crossfades of one sample. -/
def execAudioSample (n : Nat) (s : State) : Result := fin (s.event n .sample fun t s => s.sampleStep n t)

/-- A beat of an engine reads when it is its turn. -/
def State.beatEvent (s : State) (n : Nat) (d : Due) (f : Nat → State → BeatOut) : State :=
  match (s.inst n).turnOf d with
  | none => s
  | some k => match f (keyStamp k) s with
    | .done s => (s.modCore n fun c => c.passed k).settle n
    | .again s => s
    | .stall | .wait _ _ => s

/-- DMA_CHECK (R383). -/
def execDmaCheck (n i : Nat) (s : State) : Result := fin (s.event n (.dmaCheck i) fun _ s => s.dmaCheck n i)
/-- DMA_BEAT (R384): the pipe reads a beat; it waits for room and for leaves. -/
def execDmaBeat (n : Nat) (s : State) : Result :=
  fin (s.beatEvent n .dmaRead fun u s => s.dmaBeat n u)
/-- BLIT_JOB_START (R221). -/
def execBlitJobStart (n : Nat) (s : State) : Result := fin (s.event n .blitStart fun _ s => s.blitStart n)
/-- BLIT_BEAT (R219): a beat of the running job reads; it waits for an engine, for room and for leaves. -/
def execBlitBeat (n : Nat) (s : State) : Result :=
  fin (s.beatEvent n .blitRead fun u s => s.blitBeat n u)
/-- ENGINE_BEAT_LAND (R104): in its turn, or, of an instance that stands still, once its threads have passed the beat. -/
def execEngineBeatLand (n : Nat) (s : State) : Result :=
  let i := s.inst n
  if !i.runs && (match i.core.nextBeat with | some b => i.threadsPast b.stamp | none => false) then fin ((s.landBeat n).getD s)
  else fin (s.eventOr n .beat fun _ s => s.landBeat n)

/-- JOURNAL_RETIRE (R98): the head entry lands once every line at or before its stamp is captured. -/
def execJournalRetire (n : Nat) (s : State) : Result :=
  let i := s.inst n
  match i.journal with
  | e :: r => if i.headFree then fin (((s.setInst n { i with journal := r }).landEntry n e).settle n) else fin s
  | [] => fin s

/-- A job of an instance that has not ended. -/
def State.liveJob (s : State) (n seq : Nat) : Bool := (s.core n).blits.any fun j => j.seq == seq
/-- Change the phase of a job. -/
def State.jobPhase (s : State) (n seq : Nat) (p : BlitPhase) : State :=
  s.modCore n fun c => { c with blits := c.blits.map fun j => if j.seq = seq then { j with phase := p } else j }
/-- The shared queue without the jobs that have ended. -/
def State.blitQueue (s : State) : List (Nat × Nat) := s.eng.blitQ.filter fun q => s.liveJob q.1 q.2
/-- The job that a blit engine holds. -/
def State.engineJob (s : State) (k : Nat) : Option (Nat × Nat) :=
  ((s.eng.blit.find? fun e => e.1 == k).map (·.2)).bind fun q => if s.liveJob q.1 q.2 then some q else none
/-- Blit engine k can take a job (R230, R526, R527). -/
def State.engineFree (s : State) (k : Nat) : Bool :=
  decide (k < 8) && (s.engineJob k).isNone && !s.eng.inTest.contains k && !s.unitGone 2 k
/-- Engine k takes a job. -/
def State.engineTake (s : State) (k : Nat) (q : Nat × Nat) : State :=
  (({ s with eng := { s.eng with
      blit := (k, q) :: s.eng.blit.filter (fun e => e.1 != k), blitQ := s.blitQueue.filter (· != q) } } : State)).jobPhase q.1 q.2
    .running

/-- Drone credits at the blit engine job queue: the instance's own, or those of the submission port (R230, R582). -/
def State.blitCredits (s : State) (n : Nat) : Nat × Bool :=
  let own := creditSum (s.image.credits.filter fun c => c.pkind == 1 && c.prod == n) 7 0 1
  if own = 0 then (creditSum (s.image.credits.filter fun c => c.pkind == 0) 7 0 1, false) else (own, true)

/-- The job that the submission port serves next: the oldest that waits, of an instance without credits of its own (R31,
R230). -/
def State.portNext (s : State) : Option (Nat × Nat) :=
  s.eng.blitWait.find? fun q => !(s.blitCredits q.1).2 && (s.core q.1).blits.any fun j => j.seq == q.2 && j.phase == .waiting

/-- BLIT_JOB_CREDIT_WAIT (R31, R230): the oldest submitted job of instance n that waits enters the queue if a credit is free; one
under a credit of the submission port enters when it is the oldest at the port. -/
def execBlitJobCreditWait (n : Nat) (s : State) : Result :=
  let (cap, own) := s.blitCredits n
  let q := s.blitQueue
  let used := (q.filter fun e =>
    ((s.core e.1).blits.any fun j => j.seq == e.2 && j.ownCred == own) && (!own || e.1 == n)).length
  match (s.core n).blits.find? fun j => j.phase == .waiting with
  | none => fin s
  | some j =>
    if cap ≤ used || decide (32 ≤ q.length) || (!own && s.portNext != some (n, j.seq)) then fin s else
    fin ((({ s with eng := { s.eng with blitQ := q ++ [(n, j.seq)], blitWait := s.eng.blitWait.filter (· != (n, j.seq)) } }
        : State).modCore n fun c =>
      { c with blits := c.blits.map fun x => if x.seq = j.seq then { x with phase := .queued, ownCred := own } else x }))

/-- BLIT_JOB_TAKE (R230): a free engine takes the oldest job whose instance runs none before it. -/
def execBlitJobTake (k : Nat) (s : State) : Result :=
  match s.blitQueue.find? fun q => ((s.core q.1).blits.head?.map (·.seq)) == some q.2 with
  | some q => if s.engineFree k then fin (s.engineTake k q) else fin s
  | none => fin s

/-- Held beats of the blit job of instance n. -/
def State.blitHeld (s : State) (n : Nat) : Nat := ((s.core n).beats.filter fun b => !b.dma).length

/-- BLIT_SET_ASIDE (R231): an engine that holds 64 beats sets its job aside. It can come to hold them while lines keep beats from
landing, since the reads of later beats go on (R104). -/
def execBlitSetAside (k : Nat) (s : State) : Result :=
  match s.engineJob k with
  | some q =>
    if 64 ≤ s.blitHeld q.1 then
      fin (({ s with eng := { s.eng with blit := s.eng.blit.filter fun e => e.1 != k } } : State).jobPhase q.1 q.2 .aside)
    else fin s
  | none => fin s

/-- BLIT_RESUME (R231): a job set aside, its held beats landed, resumes on engine k; among several, that of the lowest
instance (DESIGN CHOICE). -/
def execBlitResume (k : Nat) (s : State) : Result :=
  match s.insts.findSome? fun e => match e.2.core.blits with
    | j :: _ => if j.phase = .aside && s.blitHeld e.1 = 0 then some (e.1, j.seq) else none
    | [] => none with
  | some q => if s.engineFree k then fin (s.engineTake k q) else fin s
  | none => fin s

end Sys2Proof.Machine
end

