-- ==== Sys2Proof/Machine/MoverRows.lean ====
section
/-! DEFINITION. The PF movers: descriptors of mover rings 0 to 3, their completion entries in the PF completion ring, and what a
draining domain does to them (12_dma.md, R391 to R398; 15_host_interface.md, R466 to R478, R494, R495; 16_clocks_power_crossings.md,
R511, R512). -/
namespace Sys2Proof.Machine

/-- OP of a descriptor (R393). -/
def Desc.op (d : Desc) : Nat := field d.desc 0 1
/-- FLAGS. -/
def Desc.flags (d : Desc) : Nat := field d.desc 1 1
/-- SRC_SPACE. -/
def Desc.srcSp (d : Desc) : Nat := field d.desc 2 1
/-- DST_SPACE. -/
def Desc.dstSp (d : Desc) : Nat := field d.desc 3 1
/-- LENGTH. -/
def Desc.len (d : Desc) : Nat := field d.desc 4 4
/-- SRC. -/
def Desc.src (d : Desc) : Nat := field d.desc 8 8
/-- DST. -/
def Desc.dst (d : Desc) : Nat := field d.desc 16 8
/-- TAG. -/
def Desc.tag (d : Desc) : Nat := field d.desc 24 4
/-- The descriptor reads a source: it is a COPY. -/
def Desc.isCopy (d : Desc) : Bool := d.op != 2

/-- The bytes of a space of R393: host IOVA, HBM, Pool. -/
def moverSpace (sp : Nat) : Nat := if sp = 0 then 2 ^ 64 else if sp = 1 then 0x900000000 else 0x8000000

/-- MALFORMED (R394). A range of length 0 is still held to its space. -/
def Desc.malformed (d : Desc) : Bool :=
  let bad (sp a : Nat) : Bool := decide (2 < sp) || a % 8 != 0 || decide (moverSpace sp < a + d.len)
  (d.op != 1 && d.op != 2) || decide (3 < d.flags) || d.len % 8 != 0 || field d.desc 28 4 != 0 || bad d.dstSp d.dst
    || (d.isCopy && bad d.srcSp d.src)

/-- The device-side ranges of a descriptor: whether each is written, its space, start and length. -/
def Desc.ranges (d : Desc) : List (Bool × Nat × Nat × Nat) :=
  ((if d.isCopy then [(false, d.srcSp, d.src, d.len)] else []) ++ [(true, d.dstSp, d.dst, d.len)]).filter
    fun x => x.2.1 != 0 && x.2.2.2 != 0

/-- The areas of instance n in a space: its Pool quota, or its work RAM, stream buffer, echo area and park area (R400, R416). -/
def State.areas (s : State) (n sp : Nat) : List (Nat × Nat) :=
  let a := (s.inst n).adm
  if sp = 2 then [(a.pool * 16384, a.vram * 16384)]
  else [(a.workB, s.workSize n), (a.strmB, streamMib a.cls * 1048576), (s.echoBase n, 262144), (s.parkBase n, 524288)]

/-- A range lies in the areas given, which may join: each step covers what it can. -/
def covered (areas : List (Nat × Nat)) : Nat → Nat → Nat → Bool
  | 0, _, _ => false
  | k + 1, a, n => n == 0 || match areas.find? fun x => decide (x.1 ≤ a) && decide (a < x.1 + x.2) with
    | none => false
    | some x => covered areas k (max a (x.1 + x.2)) (a + n - (x.1 + x.2))

/-- The areas that a PF descriptor may write in a space (R394): those of the instances that are Shelved, absent or clamped, of
which only the admitted ones have areas in the Pool and in regions 2 to 5 of the HBM (R401, R416). The range of a TARGET 1
extent is an area of its owner (R422). -/
def State.openAreas (s : State) (sp : Nat) : List (Nat × Nat) :=
  (s.insts.flatMap fun e => if e.2.adm.state = 2 && e.2.rung = .shelved then s.areas e.1 sp else [])
    ++ if sp = 1 then s.mem.ext.filterMap fun e =>
        let x := Sys2Proof.Machine.extEntry e.2
        if x.valid && x.target && (!s.admitted x.owner || (s.inst x.owner).rung == .shelved) then some (x.addr, 0x1000000) else none
      else []

/-- PROTECTED (R394). -/
def State.moverDenied (s : State) (d : Desc) : Bool :=
  d.ranges.any fun (wr, sp, a, n) =>
    (if sp = 1 then decide (a < 0x10000000) else decide (0x6000000 < a + n))
      || (wr && let l := s.openAreas sp; !covered l (l.length + 1) a n)

/-- The domains that a range lies in: the HBM, or the Pool bank groups by A[13:12] (R397, R399, R500). -/
def rangeDomains (sp a n : Nat) : List Nat :=
  if sp = 1 then [13]
  else (List.range 4).filterMap fun g =>
    if 12288 ≤ n || (List.range (n / 4096 + 2)).any (fun k => decide (a / 4096 + k ≤ (a + n - 1) / 4096) && (a / 4096 + k) % 4 == g)
    then some (1 + g) else none

/-- The domains that a descriptor's transfer touches; its host side lies behind the PCIe link. -/
def Desc.domains (d : Desc) : List Nat :=
  d.ranges.flatMap (fun x => rangeDomains x.2.1 x.2.2.1 x.2.2.2)
    ++ (if d.len ≠ 0 && (d.dstSp = 0 || (d.isCopy && d.srcSp = 0)) then [14] else [])

/-- DOMAIN_OFF (R394, R397): of the device-side ranges. -/
def State.moverDark (s : State) (d : Desc) : Bool :=
  d.ranges.any fun x => (rangeDomains x.2.1 x.2.2.1 x.2.2.2).any fun k => !s.powered k || s.isDraining k

/-- HBM address a holds what the manual gives no layout for: the checkpoint ring region, or a frame of the cartridge cache
(R416, R424). -/
def State.hbmHidden (s : State) (a : Nat) : Bool :=
  (decide (0x10000000 ≤ a) && decide (a < 0x210000000))
    || (decide (s.image.bases.getD 6 0 ≤ a)
      && !s.mem.ext.any fun e =>
        let x := Sys2Proof.Machine.extEntry e.2
        x.valid && x.target && decide (x.addr ≤ a) && decide (a < x.addr + 0x1000000))

/-- The bytes of an HBM range as a PF descriptor reads them; bytes without a layout are free values. -/
def State.moverHbm (s : State) (a n : Nat) : List Byte × State :=
  let put (k : Nat) : Byte :=
    if s.hbmHidden (a + k) then BitVec.ofNat 8 ((Config.freeWord (s.free + k / 4)).toNat / 2 ^ (8 * (k % 4)))
    else s.hbm.get zeroByte (a + k)
  ((List.range n).map put, { s with free := s.free + (n + 3) / 4 })

/-- The bytes of a Pool range as a PF descriptor reads them; those of a free granule that a march test has written are free values
(R409). -/
def State.moverPool (s : State) (a n : Nat) : List Byte × State :=
  let free (a : Nat) : Bool := s.mem.marched.contains (a / 512 % 32) && decide (a < 0x6000000) && (s.poolOwner a).isNone
  if s.mem.marched.isEmpty then (getBytes s.pool a n, s) else
  ((List.range n).map fun k =>
      if free (a + k) then BitVec.ofNat 8 ((Config.freeWord (s.free + k / 4)).toNat / 2 ^ (8 * (k % 4)))
      else s.pool.get zeroByte (a + k),
    { s with free := s.free + (n + 3) / 4 })

/-- Read the source of a transfer: the bytes up to a failure, the status that the failure gives, and the state (R394, R398).
`data` is what the host's memory answered with. An uncorrectable word is reported (R529). -/
def State.moverSource (s : State) (d : Desc) (data : List Byte) : List Byte × Nat × State :=
  if !d.isCopy then ((List.range d.len).map fun k => d.desc.getD (8 + k % 8) 0, 0, s)
  else if d.srcSp = 0 then (data.take d.len, if data.length < d.len then 3 else 0, s)
  else
    let m := if d.srcSp = 1 then MemId.hbm else .pool
    let (u, s) := s.eccRange m 0 d.src d.len
    let s := match u with | some a => s.report ((s.wordOwner ⟨m, a / 8⟩).getD 0xFFFF) a | none => s
    let n := match u with | some a => a - d.src | none => d.len
    let (b, s) := if d.srcSp = 1 then s.moverHbm d.src n else s.moverPool d.src n
    (b, if u.isSome then 4 else 0, s)

/-- Write bytes at the destination of a descriptor. -/
def State.moverWrite (s : State) (d : Desc) (b : List Byte) : State :=
  if b.isEmpty then s
  else if d.dstSp = 0 then s.send (.write 0 d.dst b)
  else if d.dstSp = 1 then let s := s.eccWrite .hbm d.dst b.length; { s with hbm := putBytes s.hbm d.dst b }
  else let s := s.eccWrite .pool d.dst b.length; { s with pool := putBytes s.pool d.dst b }

/-- The bytes that have landed when a transfer ends: all of them, or, of one that fails, those of a free number of its
64-byte units (R395). -/
def State.moverLand (s : State) (d : Desc) : State :=
  if d.status = 0 then s.moverWrite d d.data
  else if d.data.isEmpty then s
  else
    let (w, s) := s.fresh
    let first := 64 - d.dst % 64
    let k := w.toNat % ((d.data.length + d.dst % 64) / 64 + 1)
    s.moverWrite d (d.data.take (if k = 0 then 0 else first + 64 * (k - 1)))

/-- A mover ring may start a descriptor (R395, R396, R466, R495, R506): it is enabled, not halted, and holds pending ones, the PF
may issue requests, no completion entry waits, no wake is under way, and no load stands in phase 7 (R498). -/
def State.moverReady (s : State) (r : Nat) : Bool :=
  decide (r < 4) && decide (0 < s.mvPending r) && !tb (s.pf (O.HST_MV_RING_CTRL + 32 * r)).toNat 8 && s.pfTraffic
    && !s.host.descs.any (·.waits) && s.power.goal != some 1 && decide (s.pwr ≠ 4)
    && !(match s.op with | some o => decide (o.op ≤ 2) && o.phase == 7 | none => false)

/-- Entries of the PF completion ring. -/
def State.cqLen (s : State) : Nat := 2 ^ s.pfBits O.HST_PF_CQ_SIZE 4 0
/-- Room in the PF completion ring (R469, R470, R494). -/
def State.cqRoom (s : State) : Nat :=
  if tb (s.pf O.HST_PF_CQ_CTRL).toNat 0 && s.pfTraffic then
    s.cqLen - 1 - (s.pfBits O.HST_PF_CQ_DEV_PTR 21 0 + s.cqLen - s.pfBits O.HST_PF_CQ_DB 21 0) % s.cqLen
  else 0

/-- Write a MOVER entry (R478, R494). -/
def State.cqEntry (s : State) (status tag r : Nat) : State :=
  let p := s.pfBits O.HST_PF_CQ_DEV_PTR 21 0
  let seq := s.host.cqSeq + 1
  let a := (s.pf O.HST_PF_CQ_HI).toNat * 2 ^ 32 + (s.pf O.HST_PF_CQ_LO).toNat + 32 * p
  let s := s.send (.write 0 a (complBytes 4 status 0xFFFF tag 0 0 0 r seq (b2n s.host.cqPhase)))
  ({ s with host := { s.host with cqSeq := seq, cqPhase := if p + 1 = s.cqLen then !s.host.cqPhase else s.host.cqPhase } }
    : State).pfSet O.HST_PF_CQ_DEV_PTR 21 0 ((p + 1) % s.cqLen)

/-- Descriptor k in flight completes if its entry has room, and else waits (R395, R495). -/
def State.moverEnd (s : State) (k : Nat) : State :=
  match s.host.descs[k]? with
  | none => s
  | some d =>
    let s := if d.waits then s else s.moverLand d
    let put (l : List Desc) : State := { s with host := { s.host with descs := l } }
    if s.cqRoom = 0 then put (s.host.descs.set k { d with waits := true })
    else
      let s := (put (s.host.descs.eraseIdx k)).cqEntry d.status d.tag d.ring
      let s := if tb d.flags 0 then s.chipEvent (2 + d.ring) else s
      if d.status ≠ 0 && tb (s.pf (O.HST_MV_RING_CTRL + 32 * d.ring)).toNat 1 then s.pfOr (O.HST_MV_RING_CTRL + 32 * d.ring) 0x100
      else s

/-- A descriptor of ring r starts (R393 to R395): HEAD goes on, and the source is read. A descriptor that is refused reads
and moves nothing; one of LENGTH 0 completes at once. -/
def State.moverStart (s : State) (r : Nat) (desc data : List Byte) : State :=
  let d : Desc := { ring := r, desc := desc.take 32 }
  if !s.moverReady r || desc.length < 32 || (tb d.flags 1 && s.host.descs.any (·.ring == r)) then s
  else
    let len := 2 ^ s.pfBits (O.HST_MV_RING_SIZE + 32 * r) 4 0
    let s := s.pfSet (O.HST_MV_HEAD + 32 * r) 15 0 ((s.pfBits (O.HST_MV_HEAD + 32 * r) 15 0 + 1) % len)
    let refuse := if d.malformed then 1 else if s.moverDenied d then 2 else if s.moverDark d then 5 else 0
    let (b, st, s) := if refuse ≠ 0 then ([], refuse, s) else s.moverSource d data
    let t : State := { s with host := { s.host with descs := s.host.descs ++ [{ d with status := st, data := b }] } }
    if d.len = 0 && refuse = 0 then t.moverEnd s.host.descs.length else t

/-- COPY (R393): `data` holds what the host's memory answers for a host source, ended early by a failed read. -/
def execMoverCopy (r : Nat) (desc data : List Byte) (s : State) : Result :=
  if field desc 0 1 = 2 then fin s else fin (s.moverStart r desc data)
/-- FILL (R393). -/
def execMoverFill (r : Nat) (desc : List Byte) (s : State) : Result :=
  if field desc 0 1 ≠ 2 then fin s else fin (s.moverStart r desc [])

/-- A waiting MOVER entry is written once there is room (R495). -/
def State.moverRetry (s : State) : State :=
  match s.host.descs.findIdx? (·.waits) with
  | some k => if 0 < s.cqRoom then s.moverEnd k else s
  | none => s

/-- MOVER_DESCRIPTOR_COMPLETE (R395): the oldest descriptor in flight of ring r completes (DESIGN CHOICE); while an entry
waits for room, it completes before any other. -/
def execMoverDescriptorComplete (r : Nat) (s : State) : Result :=
  if s.host.descs.any (·.waits) then fin s.moverRetry
  else match s.host.descs.findIdx? (·.ring == r) with
    | some k => fin (s.moverEnd k)
    | none => fin s

/-- A write of HST_MV_TAIL (R396, R506). -/
def State.moverTail (s : State) (r : Nat) (v : Word) : State :=
  let len := 2 ^ s.pfBits (O.HST_MV_RING_SIZE + 32 * r) 4 0
  let t := wbits v 15 0
  let s := s.setPf (O.HST_MV_TAIL + 32 * r) (BitVec.ofNat 32 (min t (len - 1)))
  let s := if len ≤ t then s.pfCount O.HST_MV_CLAMP_COUNT 31 0 1 else s
  if 0 < s.mvPending r then s.wake false else s

/-- A write of HST_MV_RING_CTRL (R396): EN 0 aborts the descriptors in flight, and HALTED 1 resumes the ring. -/
def State.moverCtrl (s : State) (r : Nat) (v : Word) : State :=
  let o := O.HST_MV_RING_CTRL + 32 * r
  let s := s.modPf o fun w => wset (wset w 1 0 (wbits v 1 0)) 8 8 (wbits w 8 8 - wbits v 8 8)
  if tb v.toNat 0 then s else
  let abort (d : Desc) : Desc := if d.ring = r && !d.waits && d.status = 0 then { d with status := 7 } else d
  { s with host := { s.host with descs := s.host.descs.map abort } }

/-- HST_MV_TAIL (R396): a host write of the doorbell. -/
def execHstMvTail (r : Nat) (v : Word) (s : State) : Result :=
  if 4 ≤ r then fin s else fin (s.hostWrite .pf (.pf (O.HST_MV_TAIL + 32 * r)) 4 v.toNat fun s => s.moverTail r v)

/-- MOVER_RING_DISABLE (R396): the host writes EN 0 and leaves the other fields. -/
def execMoverRingDisable (r : Nat) (s : State) : Result :=
  if 4 ≤ r then fin s
  else
    let v := s.pf (O.HST_MV_RING_CTRL + 32 * r) &&& 2
    fin (s.hostWrite .pf (.pf (O.HST_MV_RING_CTRL + 32 * r)) 4 v.toNat fun s => s.moverCtrl r v)

/-- MOVER_RING_RESUME (R396): the host writes 1 to HALTED and leaves the other fields. -/
def execMoverRingResume (r : Nat) (s : State) : Result :=
  if 4 ≤ r then fin s
  else
    let v := orBits (s.pf (O.HST_MV_RING_CTRL + 32 * r) &&& 3) 0x100
    fin (s.hostWrite .pf (.pf (O.HST_MV_RING_CTRL + 32 * r)) 4 v.toNat fun s => s.moverCtrl r v)

end Sys2Proof.Machine
end

