-- ==== Sys2Proof/Machine/HostRows.lean ====
section
/-! DEFINITION. The PCIe side of the device (15_host_interface.md, R461 to R495): the rings of a VF, its reset, the configuration
bits of the functions, requests that are turned away, the link, and the registers of VF BAR2. -/
namespace Sys2Proof.Machine

/-- The device reads entries of the rings that the host fills (R391, R462). -/
def State.readsRings (s : State) : Bool := s.host.linkUp && s.awake

/-- The next INPUT entry of instance n is due to be read (R475, R491): it is pending, the held buffer has space, and the mover
channel does not wait. -/
def State.inputDue (s : State) (n : Nat) : Bool :=
  decide (0 < (s.inst n).vf.ringPending 0) && decide ((s.inst n).held.length < 16) && (s.chBlocked (n % 16)).isNone && s.readsRings

/-- The next CMD entry of instance n is due to be read (R477). -/
def State.cmdDue (s : State) (n : Nat) : Bool :=
  decide (0 < (s.inst n).vf.ringPending 1) && (s.inst n).running.isNone && s.readsRings

/-- An input packet arrives (R109, R474, R475, R479). -/
def State.inputArrive (s : State) (n : Nat) (e : List Byte) : State :=
  let i := s.inst n
  let f := field e 0 8
  let h : HeldInput := { frame := f, data := e.take 64, at' := s.wall }
  if field e 12 4 ≠ 0 then s.inputStatus n 3 e
  else if f < i.released then (s.pfCount (O.VID_PACE_STATUS + 32 * n) 15 0 1).inputStatus n 1 e
  else match i.inputFor f with
    | some old =>
      (s.setInst n { i with held := i.held.map fun x => if x.frame == f then h else x }).inputStatus n 2 old.data
    | none => s.setInst n { i with held := i.held ++ [h] }

/-- INPUT_ARRIVE (R475): `entry` is what the host's memory answers. -/
def execInputArrive (n : Nat) (entry : List Byte) (s : State) : Result :=
  if s.inputDue n then fin ((s.modVf n fun v => v.advance 0 1).inputArrive n entry) else fin s

/-- RING_READ_FAIL (R488): a read of the INPUT ring or of the CMD ring fails. -/
def execRingReadFail (n r : Nat) (s : State) : Result :=
  if (r = 0 && s.inputDue n) || (r = 1 && s.cmdDue n) then
    fin (((s.modVf n fun v => v.setReg (O.HST_VF_RING_CTRL + 32 * r) 0).vfStatus n (5 + r)).completeOrLose n 5 3 0 0 r)
  else fin s

/-- A write of HST_VF_RING_CTRL (R470): a ring that becomes enabled starts from entry 0 with phase 1. -/
def State.vfRingCtrl (s : State) (n r : Nat) (v : Word) : State :=
  let o := 32 * r
  let was := tb ((s.inst n).vf.reg (O.HST_VF_RING_CTRL + o)).toNat 0
  let s := s.modVf n fun f => f.setReg (O.HST_VF_RING_CTRL + o) (v &&& 1)
  if was || !tb v.toNat 0 then s else
  (s.modVf n fun f =>
    { ((f.setReg (O.HST_VF_DEV_PTR + o) 0).setReg (O.HST_VF_DB + 4096 * r) 0) with
        phases := f.phases.set r true, seqs := f.seqs.set r 0 }).retryCmd n

/-- A doorbell write (R471). -/
def State.vfDb (s : State) (n r : Nat) (v : Word) : State :=
  let f := (s.inst n).vf
  let len := f.ringLen r
  let c := min (wbits v 21 0) (len - 1)
  let s := if len ≤ wbits v 21 0 then s.modVf n fun f => f.modReg O.HST_VF_CLAMP_COUNT fun w => countUp w 31 0 1 else s
  let held (x : Nat) : Nat := (f.devPtr r + len - x % len) % len
  if 2 ≤ r && decide (held (f.hostPtr r) < held c) then s.vfStatus n 3
  else
    let s := s.modVf n fun f => f.setReg (O.HST_VF_DB + 4096 * r) (BitVec.ofNat 32 c)
    if r = 2 then s.retryCmd n else s

/-- HST_VF_RING_ENABLE (R470): a host write of HST_VF_RING_CTRL. -/
def execHstVfRingEnable (p : Path) (n r : Nat) (v : Word) (s : State) : Result :=
  if 5 ≤ r then fin s
  else fin (s.hostWrite p (.bar2 n (O.HST_VF_RING_CTRL + 32 * r)) 4 v.toNat fun s => s.vfRingCtrl n r v)

/-- HST_VF_DB (R471): a host write of a doorbell. -/
def execHstVfDb (p : Path) (n r : Nat) (v : Word) (s : State) : Result :=
  if 5 ≤ r then fin s
  else fin (s.hostWrite p (.bar2 n (O.HST_VF_DB + 4096 * r)) 4 v.toNat fun s => s.vfDb n r v)

/-- IRQ_DELAY_EXPIRE (R483). -/
def execIrqDelayExpire (n : Nat) (s : State) : Result :=
  let v := (s.inst n).vf
  if 0 < v.unsig && v.rbits O.HST_VF_IRQ_MOD 15 0 ≠ 0 then fin ((s.modVf n fun v => { v with unsig := 0 }).vfMsix n 0)
  else fin s

/-- The registers of BAR2, the MSI-X table and all that follows from them at their reset values (R472, R492); Bus Master Enable
clears as PCIe defines of an FLR (PRESUMED). -/
def Vf.cleared (v : Vf) : Vf := { enabled := v.enabled, mse := v.mse }

/-- The RW, WO and RC fields of the Bellows block, and every field of the stream block, at their reset values (R251, R432). -/
def Inst.blocksReset (i : Inst) : Inst :=
  { i with regs := i.regs.filterMap fun e =>
      if 0x7000 ≤ e.1 then none else
      match findReg windowRegs e.1 with
      | none => none
      | some (r, k) =>
        let keep := r.flds.foldl (fun w f => if f.acc = .ro || f.acc = .w1c then putField w f (bits e.2.toNat f.hi f.lo) else w)
          (r.resetWord k).toNat
        if BitVec.ofNat 32 keep = windowReset e.1 then none else some (e.1, BitVec.ofNat 32 keep) }

/-- Steps 1 and 2 of an FLR (R492): held packets are dropped, and the running command ends with ABORTED and no completion. What the
register mirror holds for BAR2 goes with its registers (R472, R505). -/
def State.flrBegin (s : State) (n : Nat) : State :=
  let s : State := { s with power := { s.power with mirrorOps := s.power.mirrorOps.filter fun o => match o with
    | .write _ (.bar2 m _) _ _ | .act _ (.bar2 m _) _ _ | .read _ (.bar2 m _) _ => m != n
    | _ => true } }
  s.modInst n fun i =>
    let j : Inst := { i with held := [], running := none, vf := { i.vf with flr := true } }
    match i.running with | some c => j.noteCmd c 9 | none => j

/-- Steps 3 to 7 of an FLR (R492). -/
def State.flrEnd (s : State) (n : Nat) : State :=
  let s := (s.flushOwned n).dropPackets n false 0
  let s := if s.admitted n then s.resetInst n else s
  s.modInst n fun i =>
    { i.blocksReset with rung := .shelved, faultHeld := false, found := [], ckptDone := true, vf := i.vf.cleared }

/-- A function-level reset of the VF that serves instance n (R492): it waits before step 3 for the traffic of the PF, which the
dirty leaves need. -/
def State.vfReset (s : State) (n : Nat) : State :=
  let s := s.flrBegin n
  let dirty := s.mem.leaves.any fun x => x.dirty && (s.extEntry x.extent).owned && (s.extEntry x.extent).owner == n
  if dirty && !(s.pfTraffic && s.hbmToHost) then s else s.flrEnd n

/-- FLR (R492). A command of an FLR that waits takes it up again. -/
def execFlr (n : Nat) (s : State) : Result :=
  if (s.inst n).vf.enabled || (s.inst n).vf.flr then fin (s.vfReset n) else fin s

/-- NumVFs falls to `count`, which acts as an FLR on each removed VF (R493). -/
def State.lowerVfs (s : State) (count : Nat) : State :=
  let s := ((s.insts.filter fun e => decide (count ≤ e.1) && e.2.vf.enabled).map (·.1)).foldl
    (fun s n => (s.vfReset n).modVf n fun v => { v with enabled := false, mse := false }) s
  { s with host := { s.host with numVfs := min count s.host.numVfs } }

/-- VF_ENABLE_CLEAR (R493): NumVFs becomes `count`, 0 where VF Enable is cleared. -/
def execVfEnableClear (count : Nat) (s : State) : Result := fin (s.lowerVfs count)

/-- A write of NumVFs with VF Enable: the VFs from 1 on exist, at most 512 of them (R45, R464, R493). -/
def State.setVfs (s : State) (count : Nat) : State :=
  if count < s.host.numVfs then s.lowerVfs count
  else if 512 < count then s
  else (List.range count).foldl (fun s n => s.modVf n fun v => { v with enabled := true })
    { s with host := { s.host with numVfs := count } }

/-- A configuration request reaches the device, or gets Request Retry Status (R462). -/
def State.configure (s : State) (f : State → State) : State :=
  if !s.host.linkUp || decide (s.pwr = 4) then s
  else if !s.boot.ready then s.answered .retry
  else f (s.answered .done)

/-- Function fn is a VF that exists. -/
def State.vfExists (s : State) (fn : Nat) : Bool := decide (0 < fn) && (s.inst (fn - 1)).vf.enabled

/-- BUS_MASTER_ENABLE_CHANGE (R466): function 0 is the PF, and function n + 1 the VF of instance n. -/
def execBusMasterEnableChange (fn : Nat) (on : Bool) (s : State) : Result :=
  fin (s.configure fun s =>
    if fn = 0 then ({ s with host := { s.host with bme := on } } : State).pfMsixFlush.moverRetry
    else if !s.vfExists fn then s.answered .unsupported
    else ((s.modVf (fn - 1) fun v => { v with bme := on }).vfMsixFlush (fn - 1)).retryCmd (fn - 1))

/-- MEMORY_SPACE_ENABLE_CHANGE (R466). -/
def execMemorySpaceEnableChange (fn : Nat) (on : Bool) (s : State) : Result :=
  fin (s.configure fun s =>
    if fn = 0 then { s with host := { s.host with mse := on } }
    else if !s.vfExists fn then s.answered .unsupported
    else s.modVf (fn - 1) fun v => { v with mse := on })

/-- The PF has a capability, or a VF has it (R464). -/
def hasCapability (fn : Nat) (c : Capability) : Bool :=
  if fn = 0 then c ≠ .flr else [Capability.pciExpress, .flr, .msix, .ari].contains c

/-- A configuration item as it reads; an item that a function does not have reads 0 (R45, R464, R466, R482, R489). -/
def State.cfgValue (s : State) (fn : Nat) (x : CfgItem) : Nat :=
  let h := s.host
  let v := (s.inst (fn - 1)).vf
  let pf (a : Nat) : Nat := if fn = 0 then a else 0
  let pick (a b : Bool) : Nat := b2n (if fn = 0 then a else b)
  match x with
  | .vendorId => pf Config.vendorId
  | .deviceId => pf 0x8512
  | .classCode => pf 0x120000
  | .capability c => b2n (hasCapability fn c)
  | .msixVectors => if fn = 0 then 256 else 8
  | .barBytes k => if fn = 0 then (if k = 0 then 0x4000000 else 0) else if k = 0 then 0x10000 else if k = 2 then 0x40000 else 0
  | .totalVfs => pf 512
  | .initialVfs => pf 512
  | .firstVfOffset => pf 1
  | .vfStride => pf 1
  | .vfDeviceId => pf 0x8513
  | .pageSizes => pf 0x1F
  | .numVfs => pf h.numVfs
  | .memorySpace => pick h.mse v.mse
  | .busMaster => pick h.bme v.bme
  | .msixEnable => pick h.msixOn v.msixOn
  | .functionMask => pick h.msixOff v.msixOff
  | .aerStatus => pf ((h.aer.filter fun e => e.1 == 0).foldl (fun a e => a ||| 2 ^ e.2) 0)
  | .aerSeverity => pf h.severity.toNat
  | .l12Enable => pf (b2n h.l12)

/-- A write of a configuration item (R463, R464, R482, R489): the AER status is W1C, and Memory Space Enable and Bus Master Enable
have commands of their own. -/
def State.cfgWrite (s : State) (fn : Nat) (x : CfgItem) (v : Nat) : State :=
  let on := tb v 0
  if fn ≠ 0 && !s.vfExists fn then s.answered .unsupported else
  match fn, x with
  | 0, .msixEnable => ({ s with host := { s.host with msixOn := on } } : State).pfMsixFlush
  | 0, .functionMask => ({ s with host := { s.host with msixOff := on } } : State).pfMsixFlush
  | 0, .numVfs => s.setVfs v
  | 0, .aerSeverity => { s with host := { s.host with severity := BitVec.ofNat 32 v } }
  | 0, .aerStatus => { s with host := { s.host with aer := s.host.aer.filter fun e => !(e.1 == 0 && tb v e.2) } }
  | 0, .l12Enable => { s with host := { s.host with l12 := on } }
  | _, .msixEnable => (s.modVf (fn - 1) fun f => { f with msixOn := on }).vfMsixFlush (fn - 1)
  | _, .functionMask => (s.modVf (fn - 1) fun f => { f with msixOff := on }).vfMsixFlush (fn - 1)
  | _, _ => s

/-- UNSUPPORTED_REQUEST (R466, R489). -/
def execUnsupportedRequest (p : Path) (a : RegAddr) (s : State) : Result :=
  if s.hostHit p (aimOf p a) = .unsupported then fin (s.answered .unsupported) else fin s

/-- POISONED_WRITE (R489): discarded, and reported by the function that it aims at. -/
def execPoisonedWrite (p : Path) (a : RegAddr) (s : State) : Result :=
  match s.hostHit p (aimOf p a) with
  | .none => fin s
  | .unsupported => fin (s.answered .unsupported)
  | _ => fin ((s.aerNote (aimedFn p a) 12).answered .poisoned)

/-- LINK_TRAIN (R34, R461, R462, R495): a width and a rate of R461, with flit mode always at 64 GT/s. -/
def execLinkTrain (lanes rate : Nat) (flit : Bool) (s : State) : Result :=
  if !s.boot.powered || s.boot.perst || s.boot.stopped || tb s.pins.straps 2 || !([1, 2, 4, 8].contains lanes) || rate = 0 || decide (6 < rate) || (rate = 6 && !flit)
      || decide (s.pwr = 4) then fin s
  else
    let again := s.host.linkUp
    let s : State := { s with host := { s.host with lanes, rate, flit, linkUp := true } }
    fin (if again then s.pfCount O.HST_LINK_STATUS 15 0 1 else s)

/-- CHANNEL_WATCHDOG_EXPIRE (R490). -/
def execChannelWatchdogExpire (k : Nat) (s : State) : Result :=
  if k < 16 && (s.chBlocked k).isSome then fin (s.pfOr O.HST_WD_STATUS (2 ^ k)) else fin s

/-- A read of BAR2 (R472, R473); the MSI-X table and PBA follow PCIe. -/
def State.vfValue (s : State) (n off : Nat) : Word :=
  let i := s.inst n
  let v := i.vf
  if 0x20000 ≤ off && decide (off < 0x20080) then v.msix.get msixReset (off - 0x20000)
  else if off = 0x21000 then BitVec.ofNat 32 v.pba
  else if off = O.HST_VF_STATUS then
    wset (wset (v.reg off) 2 2 (b2n (decide (16 ≤ i.held.length)))) 1 1 (b2n v.bme)
  else v.reg off

/-- A 32-bit read of BAR2 clears what it reads of RC fields (R5). -/
def State.vfRead (s : State) (n off : Nat) : Nat × State :=
  ((s.vfValue n off).toNat, match findReg vfRegs off with
    | some (r, _) => s.modVf n fun v => v.modReg off r.readClear
    | none => s)

/-- What a word of an MSI-X table keeps of a write (PRESUMED, as PCIe defines): an address is a multiple of 4, and Vector
Control has the mask bit alone. -/
def msixKeep (o : Nat) (v : Word) : Word := if o % 16 = 0 then v &&& 0xFFFFFFFC else if o % 16 = 12 then v &&& 1 else v

/-- A 32-bit write of BAR2 (R470 to R473). -/
def State.vfWrite (s : State) (n off : Nat) (v : Word) : State :=
  if 0x20000 ≤ off && decide (off < 0x20080) then
    (s.modVf n fun f => { f with msix := f.msix.set msixReset (off - 0x20000) (msixKeep (off - 0x20000) v) }).vfMsixFlush n
  else match findReg vfRegs off with
    | none => s
    | some (r, k) =>
      if r.name = "HST_VF_RING_CTRL" then s.vfRingCtrl n k v
      else if r.name = "HST_VF_DB" then s.vfDb n k v
      else
        let ring := (off - 0x1000) / 32
        let fixed := decide (0x1000 ≤ off) && decide (off < 0x10000) && r.name != "HST_VF_DEV_PTR"
        if fixed && tb ((s.inst n).vf.reg (O.HST_VF_RING_CTRL + 32 * ring)).toNat 0 then s.vfStatus n 4
        else
          let (w, c) := r.write ((s.inst n).vf.reg off) v
          s.modVf n fun f => (f.setReg off w).modReg O.HST_VF_CLAMP_COUNT fun x => countUp x 31 0 c

end Sys2Proof.Machine
end

