-- ==== Sys2Proof/Machine/LineRows.lean ====
section
/-! DEFINITION. The commands of frame pacing and of lines (03_virtual_time_beam.md, R106 to R120; 06_composition.md). -/
namespace Sys2Proof.Machine

/-- FRAME_RELEASE (R107). -/
def execFrameRelease (n : Nat) (s : State) : Result := fin (if s.mayRelease n then (s.releaseFrame n).settle n else s)

/-- D(F) of the next frame to be released, in counts of the wall time of R497 (R83, R108, R112): none for an instance that has
entered no Playing. -/
def State.deadline (s : State) (n : Nat) : Option Nat :=
  let i := s.inst n
  i.anchor.map fun a => a.1 + (i.released - a.2) * i.framePeriod + s.pfBits (O.VID_PACE_SLACK + 32 * n) 15 0 * 4800

/-- PACING_DEADLINE_EXPIRE (R107, R108): D(F) of the next frame passes. -/
def execPacingDeadlineExpire (n : Nat) (s : State) : Result :=
  let i := s.inst n
  let live := match i.catchUp with | some c => decide (c.goal ≤ i.released) | none => true
  let due := match s.deadline n with | some d => decide (d ≤ s.wall) | none => false
  if i.runs && live && due then fin (s.setInst n { i with expired := true }) else fin s

/-- A write of VID_PACE_CTRL (R8, R112). -/
def State.paceCtrl (s : State) (n : Nat) (v : Word) : State :=
  let mode := wbits v 1 0
  let s := s.pfSet (O.VID_PACE_CTRL + 32 * n) 1 0 (if mode = 3 then 0 else mode)
  let s := if mode = 3 then s.pfCount O.VID_SCH_CLAMP_COUNT 31 0 1 else s
  if tb v.toNat 31 then s.modInst n fun i => { i with reanchor := true } else s

/-- VID_PACE_REANCHOR (R112). -/
def execVidPaceReanchor (n : Nat) (v : Word) (s : State) : Result :=
  if 512 ≤ n then fin s else fin (s.hostWrite .pf (.pf (O.VID_PACE_CTRL + 32 * n)) 4 v.toNat fun s => s.paceCtrl n v)

/-- LINE_STATE_POINT (R93, R116). -/
def execLineStatePoint (n : Nat) (s : State) : Result := fin (s.eventOr n .line fun t s => s.linePoint n t)

/-- FRAME_LATCH (R95, R188). -/
def execFrameLatch (n : Nat) (s : State) : Result := fin (s.event n .latch fun _ s => s.latchPoint n)

/-- LINE_DISPATCH (R28, R118): renderer k takes the first job of its group's queue, when that is a job of instance n. -/
def execLineDispatch (n k : Nat) (s : State) : Result :=
  if !s.rendActive k || s.rendBusy k || !s.rendCredit k then fin s else
  match s.nextJob (k / 5) with
  | some (m, j) => if m = n then fin (s.captureLineOf n k j) else fin s
  | none => fin s

/-- LINE_RENDER_DONE (R119): renderer k finishes its line, once the lines before it have finished. -/
def execLineRenderDone (k : Nat) (s : State) : Result :=
  match s.insts.find? fun e => match e.2.rendering with | r :: _ => r.renderer == k | [] => false with
  | some (n, i) => match i.rendering with
    | r :: _ => fin (s.lineDone n k r)
    | [] => fin s
  | none => fin s

end Sys2Proof.Machine
end

