-- ==== Sys2Proof/Machine/MonitorRows.lean ====
section
/-! DEFINITION. The commands of the monitor outputs and of the Bell layer (08_stream_output.md, R268 to R275; 06_composition.md, R202
to R208; 18_pins_boot.md, R544). -/
namespace Sys2Proof.Machine

/-- Monitor output k. -/
def State.mon (s : State) (k : Nat) : Monitor := s.mons.getD k {}
/-- Replace it. -/
def State.setMon (s : State) (k : Nat) (m : Monitor) : State := { s with mons := s.mons.set k m }

/-- Output k may hold a slot (R271). -/
def State.monReady (s : State) (k : Nat) : Bool :=
  s.dpoOn k && s.dpoUp k && !tb (s.pf (O.DPO_STATUS + 16 * k)).toNat 29 && tb (s.pf O.CLK_STATUS).toNat 3

/-- Output k lets its slot go (R248, R271). -/
def State.monRelease (s : State) (k : Nat) : State :=
  match (s.mon k).holds with
  | some (n, _) => (s.setMon k { s.mon k with holds := none, showing := none }).releaseSlots n
  | none => s

/-- A field of the header of a packet in its slot. -/
def State.slotField (s : State) (n : Nat) (p : Packet) (o len : Nat) : Nat :=
  leNat (getBytes s.hbm ((s.inst n).slotAt p.slot + o) len)

/-- The newest packet of an instance that an output can show (R271). -/
def State.monSelect (s : State) (n : Nat) : Option Packet :=
  (s.inst n).packets.reverse.find? fun p =>
    decide (p.slot < 4) && Nat.land (s.slotField n p 0x20 4) 0x180 = 0 && s.slotField n p 0x14 4 ≠ 0

/-- The picture of a packet's video section; a failed block is black (R272). -/
def State.monPicture (s : State) (n : Nat) (p : Packet) : List (List Nat) :=
  let fb (o : Nat) : Nat := (s.hbm.get zeroByte ((s.inst n).slotAt p.slot + 0x40 + o)).toNat
  match surfHeader fb with
  | none => []
  | some hd => (List.range hd.height).map fun y =>
    let bs := decodeRow fb (fun _ => false) hd (y / 4)
    (List.range hd.width).map fun x => match (rowPixel bs x y).1 with | some v => v % 2 ^ 24 | none => 0

/-- The pixel at column x and line y of the 1920 by 1080 picture of an output (R272, R273). -/
def Monitor.pixel (m : Monitor) (x y : Nat) : Nat :=
  let f := if m.cls = 0 then 4 else if m.cls = 1 then 3 else 2
  let vw := ((m.picture.head?).getD []).length
  let vh := m.picture.length
  let x0 := (1920 - f * vw) / 2
  let y0 := (1080 - f * vh) / 2
  if m.black || decide (x < x0) || decide (y < y0) then 0 else (m.picture.getD ((y - y0) / f) []).getD ((x - x0) / f) 0

/-- A change of INSTANCE takes effect for output k (R270, R271, R275). -/
def State.monSource (s : State) (k : Nat) : State :=
  let n := s.pfBits (O.DPO_CTRL + 16 * k) 24 16
  if (s.mon k).source = some n then s else
  let s := s.monRelease k
  s.setMon k { s.mon k with source := some n, audio := [], showing := none }

/-- A frame of output k, which may hold a slot, starts (R270 to R273, R275). -/
def State.monFrame (s : State) (k : Nat) : State :=
  let n := s.pfBits (O.DPO_CTRL + 16 * k) 24 16
  let s := s.monSource k
  let i := s.inst n
  let old := s.mon k
  let pick := if i.adm.state = 2 then s.monSelect n else none
  let s := match pick with | some p => s.readChecked n .hbm (i.slotAt p.slot) p.total | none => s
  let black := pick.isNone || i.lastFault || tb (i.reg O.STR_STATUS).toNat 0 || s.chipFault || s.safety.avClock
  let showing := if black then none else pick.map fun p => (n, p.seq)
  let again := showing.isSome && decide (old.showing = showing)
  let m : Monitor := { old with
    showing, black, cls := i.adm.cls, holds := pick.map fun p => (n, p.slot)
    picture := match pick with | some p => s.monPicture n p | none => [] }
  let o := O.DPO_STATUS + 16 * k
  (((s.setMon k m).pfSet o 28 28 (b2n black)).pfCount o 15 0 (b2n again)).releaseSlots n

/-- MONITOR_FRAME_START (R271, R274, R275, R546): FRAME_MARK is high for 1 us. An enabled output follows INSTANCE whatever its link does; without a link that can show
it, no packet is selected. -/
def execMonitorFrameStart (k : Nat) (s : State) : Result :=
  if 2 ≤ k || !s.dpoOn k || !tb (s.pf O.CLK_STATUS).toNat 3 then fin s else
  let s := s.setMon k { s.mon k with mark := s.wall + 4800 }
  if s.monReady k then fin (s.monFrame k)
  else fin (s.monSource k)

/-- MONITOR_SLOT_RELEASE (R271). -/
def execMonitorSlotRelease (k : Nat) (s : State) : Result := if s.monReady k then fin s else fin (s.monRelease k)

/-- The event of output k (R537). -/
def State.dpoEvent (s : State) (k : Nat) : State := s.chipEvent (14 + k)

/-- Bits per second of a lane, in units of 10 Mb/s, by RATE code (R269). -/
def dpRate (code : Nat) : Nat := [0, 162, 270, 540, 810].getD code 0

/-- The link of output k is gone (R269, R271). -/
def State.dpDown (s : State) (k : Nat) : State :=
  let o := O.DPO_STATUS + 16 * k
  ((s.pfSet o 22 16 0).pfSet o 30 29 0).monRelease k

/-- DP_LINK_TRAIN (R269, R537): the outcome of a training of output k; 0 lanes is a failed one, which loses a link that was up. -/
def execDpLinkTrain (k lanes rate : Nat) (s : State) : Result :=
  let was := s.dpoUp k
  let ok := decide (k < 2) && s.pins.hpd.getD k false && s.boot.ready
    && (([1, 2, 4].contains lanes && decide (1 ≤ rate) && decide (rate ≤ 4)) || (lanes = 0 && rate = 0))
  if !ok then fin s
  else if lanes = 0 then fin (if was then (s.dpDown k).dpoEvent k else s.dpDown k)
  else
    let o := O.DPO_STATUS + 16 * k
    let short := decide (lanes * dpRate rate * 8 < 3564)
    let s := (s.pfSet o 22 16 (lanes * 16 + rate)).pfSet o 30 29 (2 + b2n short)
    fin (if short then s.dpoEvent k else s)

/-- Output k takes a new level of its HPD input (R269, R270). -/
def State.hpdTake (s : State) (k : Nat) (on : Bool) : State :=
  let s := (s.pfSet (O.DPO_STATUS + 16 * k) 31 31 (b2n on)).dpoEvent k
  if on then s else s.dpDown k

/-- HPD_EVENT (R269, R544): the input changes its level, or a sink IRQ asks for a training, which is a command of its own. In reset,
and while the mirror stands for the output (R505), the level changes and does nothing else. -/
def execHpdEvent (k : Nat) (e : HpdKind) (s : State) : Result :=
  if 2 ≤ k then fin s else
  let level (on : Bool) : State :=
    let t : State := { s with pins := { s.pins with hpd := s.pins.hpd.set k on } }
    if s.boot.powered && !s.boot.perst && !s.mirrored && decide (s.pwr ≠ 4) then t.hpdTake k on else t
  match e, s.pins.hpd.getD k false with
  | .plug, false => fin (level true)
  | .unplug, true => fin (level false)
  | _, _ => fin s

/-- DP_LINK_LOSS (R269, R271, R537). -/
def execDpLinkLoss (k : Nat) (s : State) : Result :=
  if decide (k < 2) && s.dpoUp k then fin ((s.dpDown k).dpoEvent k) else fin s

/-- I2S_BLOCK_DRAIN (R274, R275): the output takes the next block, or finds none and sends zeros. -/
def execI2sBlockDrain (k : Nat) (s : State) : Result :=
  if 2 ≤ k || !s.dpoOn k || s.safety.avClock then fin s else
  let m := s.mon k
  match m.audio with
  | b :: r => fin (s.setMon k { m with audio := r, sending := b, playing := true })
  | [] =>
    if m.playing then fin ((s.setMon k { m with playing := false, sending := [] }).pfCount (O.DPO_I2S + 16 * k) 31 16 1) else fin s

/-- What an I2S output drives (R274, R542): high impedance without power and in reset, stopped with BCLK, WS, MCLK and SD low, or
clocks from the audio PLL at 64 and 256 times fs with WS and SD as `State.i2sBit` gives. -/
inductive I2sDrive where
  | hiZ
  | low
  | runs (fs : Nat)
  deriving DecidableEq, Repr

/-- What I2S output k drives (R270, R274, R523, R542). -/
def State.i2sDrive (s : State) (k : Nat) : I2sDrive :=
  if !s.boot.powered || s.boot.perst then .hiZ
  else if !s.dpoOn k || s.safety.avClock then .low
  else .runs (match (s.mon k).source with | some n => if (s.inst n).adm.aud32 then 32000 else 48000 | none => 48000)

/-- WS and SD in BCLK j of sample i of the block that output k sends (R274): 32 BCLK for each channel, WS low for the left one, the
sample MSB first from one BCLK after the WS edge, and then zeros. -/
def State.i2sBit (s : State) (k i j : Nat) : Bool × Bool :=
  let x : Stereo := (s.mon k).sending.getD i {}
  let v := wrap 16 (if j < 32 then x.l else x.r)
  (decide (32 ≤ j), decide (1 ≤ j % 32) && decide (j % 32 ≤ 16) && tb v (16 - j % 32))

/-- A write of COMMIT of the Bell layer of instance n (R208). -/
def State.bellCommit (s : State) (n : Nat) (v : Word) : State :=
  if !tb v.toNat 0 then s else
  let c := s.bellStaged n
  let st := O.CMP_BELL_STATUS + 128 * n
  if s.bellPending n || decide (12288 < c.h * bellPitch c.w (bellBpp (bits c.ctrl 3 2))) then s.pfOr st 32
  else if (s.inst n).adm.state ≠ 2 then s.bellSwitch n c
  else s.pfOr st 2

/-- CMP_BELL_COMMIT (R208). -/
def execCmpBellCommit (n : Nat) (v : Word) (s : State) : Result :=
  if n < 512 then fin (s.hostWrite .pf (.pf (O.CMP_BELL_COMMIT + 128 * n)) 4 v.toNat fun s => s.bellCommit n v) else fin s

/-- BELL_BANK_SWITCH (R208): a release has made the staging bank active, and every line of earlier frames was merged before
it. -/
def execBellBankSwitch (n : Nat) (s : State) : Result :=
  match (s.inst n).bell.next with
  | some c => fin (s.bellSwitch n c)
  | none => fin s

/-- The instance whose staging bank the surface window shows, and the bank's Pool address (R203, R207). -/
def State.bellWindow (s : State) : Nat × Nat :=
  let n := s.pfBits O.CMP_BELL_WIN_SEL 8 0
  (n, 0x6880000 + n * 0x8000 + (1 - s.bellBank n) * 0x3000)

/-- A write of bytes through the surface window (R207). -/
def State.bellSurface (s : State) (off : Nat) (data : List Byte) : State :=
  let (n, a) := s.bellWindow
  if s.bellPending n then s.pfOr (O.CMP_BELL_STATUS + 128 * n) 16
  else { (s.eccWrite .pool (a + off) data.length) with pool := putBytes s.pool (a + off) data }

/-- BELL_SURFACE_WRITE (R207): the window takes naturally aligned accesses of 1, 2, 4 or 8 bytes (DEDUCED: R3 is about
registers). -/
def execBellSurfaceWrite (off width v : Nat) (s : State) : Result :=
  if decide (off < 0x3000) && [1, 2, 4, 8].contains width && off % width = 0 then
    fin (s.hostWrite .pf (.pf (0x3A0000 + off)) width v fun s => s.bellSurface off (leBytes width v))
  else fin s

end Sys2Proof.Machine
end

