-- ==== Sys2Proof/Machine/PinRows.lean ====
section
/-! DEFINITION. The commands of the pins and of the JTAG port (18_pins_boot.md, R546 to R554). -/
namespace Sys2Proof.Machine

/-- A write of the GPIO block reaches it from an agent: the host's through PF BAR0 (R549); management writes at any time out of
reset. A halted pair writes nothing; the other one takes over the safety duties (R533). -/
def State.gpioBy (s : State) (a : Agent) (off : Nat) (v : Word) : State :=
  match a with
  | .host => s.hostWrite .pf (.pf off) 4 v.toNat fun s => s.gpioWrite .host off v
  | .mgt => if s.boot.powered && !s.boot.perst && !s.safety.halted.contains 0 then s.gpioWrite a off v else s
  | .safe => if s.boot.powered && !s.boot.perst && !(s.safety.halted.contains 0 && s.safety.halted.contains 1) then s.gpioWrite a off v else s

/-- GPIO_CFG_WRITE (R548, R549). -/
def execGpioCfgWrite (a : Agent) (p : Nat) (v : Word) (s : State) : Result :=
  if p < 48 then fin (s.gpioBy a (O.GPIO_CFG + 4 * p) v) else fin s
/-- GPIO_SWITCH_SETTLE (R548). -/
def execGpioSwitchSettle (p : Nat) (s : State) : Result := fin (s.gpioSettle p)
/-- GPIO_TGL (R553). -/
def execGpioTgl (a : Agent) (w : Nat) (v : Word) (s : State) : Result :=
  if w < 2 then fin (s.gpioBy a (O.GPIO_TGL + 4 * w) v) else fin s
/-- GPIO_LOCK_KEY (R550). -/
def execGpioLockKey (a : Agent) (v : Word) (s : State) : Result := fin (s.gpioBy a O.GPIO_LOCK_KEY v)
/-- GPIO_LOCKED_WRITE (R550). -/
def execGpioLockedWrite (a : Agent) (w : Nat) (v : Word) (s : State) : Result :=
  if w < 2 then fin (s.gpioBy a (O.GPIO_LOCKED + 4 * w) v) else fin s
/-- GPIO_EDGE (R551). -/
def execGpioEdge (p : Nat) (level : Bool) (closed : Nat) (s : State) : Result :=
  if s.boot.powered && decide (p < 48) then fin (s.gpioSample p level closed) else fin s

/-- EXTEST, CLAMP and HIGHZ are accepted (R554): while PERST# is asserted, or while the lifecycle is Blank or Returned. -/
def State.jtagDrives (s : State) : Bool := s.boot.perst || s.fuses.lifecycle = 0 || s.fuses.lifecycle = 3

/-- Load a JTAG instruction: the instruction in force, the chain that drives the balls, and what TDO shifts out. -/
def State.jtagLoad (s : State) (ir : JtagIr) (held : Nat) (tdo : Word) : State :=
  if !s.boot.powered then s else { s with pins := { s.pins with jtag := ir, held, tdo } }

/-- The levels at the pins, as the boundary-scan chain captures them (R554); bit p stands for pin p. -/
def State.chainLevels (s : State) : Nat := loop 48 (fun p m => if s.pinLevel p then m + 2 ^ p else m) 0

/-- BYPASS (R554): the bypass register captures 0 (PRESUMED of IEEE 1149.1). -/
def execJtagBypass (s : State) : Result := fin (s.jtagLoad .bypass s.pins.held 0)

/-- IDCODE (R554). -/
def execIdcode (s : State) : Result :=
  fin (s.jtagLoad .idcode s.pins.held
    (BitVec.ofNat 32 (s.pfBits O.HST_IDENT 3 0 * 2 ^ 28 + 0x8512 * 2 ^ 12 + Config.jep106 % 2 ^ 11 * 2 + 1)))

/-- SAMPLE/PRELOAD (R554): the chain captures the balls, and `v` is shifted in. -/
def execSamplePreload (v : Nat) (s : State) : Result :=
  if !s.boot.powered then fin s else
  let c := s.chainLevels
  fin { s with pins := { s.pins with jtag := .sample, capture := c, preload := v % 2 ^ 48, tdo := BitVec.ofNat 32 c } }

/-- EXTEST (R554): the chain captures the balls, and `v`, shifted in, drives them. -/
def execExtest (v : Nat) (s : State) : Result :=
  if !s.jtagDrives then fin (s.jtagLoad .bypass s.pins.held 0) else
  let c := s.chainLevels
  let s : State := if s.boot.powered then { s with pins := { s.pins with capture := c, preload := v % 2 ^ 48 } } else s
  fin (s.jtagLoad .extest (v % 2 ^ 48) (BitVec.ofNat 32 c))

/-- CLAMP (R554): the preloaded chain drives the balls. -/
def execClampInstruction (s : State) : Result :=
  if s.jtagDrives then fin (s.jtagLoad .clamp s.pins.preload 0) else fin (s.jtagLoad .bypass s.pins.held 0)

/-- HIGHZ (R554): the balls are released. -/
def execHighz (s : State) : Result :=
  if s.jtagDrives then fin (s.jtagLoad .highz s.pins.held 0) else fin (s.jtagLoad .bypass s.pins.held 0)

end Sys2Proof.Machine
end

