-- ==== Sys2Proof/Machine/PowerRows.lean ====
section
/-! DEFINITION. The commands of the power ladder and of the crossings (16_clocks_power_crossings.md). -/
namespace Sys2Proof.Machine

/-- RUN: the host writes TARGET RUN (R506). -/
def execPowerRun (s : State) : Result := fin (s.hostWrite .pf (.pf O.PWR_CTRL) 4 0 fun s => s.pwrCtrl 0)
/-- RETAIN: the host writes TARGET RETAIN (R503, R504). -/
def execRetain (s : State) : Result := fin (s.hostWrite .pf (.pf O.PWR_CTRL) 4 2 fun s => s.pwrCtrl 2)
/-- DOZE: the host writes TARGET DOZE (R503, R504). -/
def execDoze (s : State) : Result := fin (s.hostWrite .pf (.pf O.PWR_CTRL) 4 3 fun s => s.pwrCtrl 3)

/-- LINK_SLEEP_ENTER (R507): an entry into L1.2, which the host has enabled. -/
def execLinkSleepEnter (s : State) : Result :=
  if s.pwr = 3 && s.power.goal.isNone && s.host.linkUp && s.host.l12 then
    fin ((s.pfSet O.PWR_STATUS 31 29 4).modPf O.PWR_DOMAINS fun w => clrBits w (2 ^ 14))
  else fin s

/-- LINK_SLEEP_EXIT (R507): the chip is back in Doze. -/
def execLinkSleepExit (s : State) : Result :=
  if s.pwr = 4 then
    fin ((s.pfSet O.PWR_STATUS 31 29 3).pfOr O.PWR_DOMAINS (2 ^ 14))
  else fin s

/-- ADAPTIVE_VOLTAGE_SCALING (R499, R520; 19_electrical.md): a step of at most 10 mV within 700 to 800 mV. The lower fault
limit follows a lower target at once, and a higher one when POWER_GOOD returns. -/
def execAdaptiveVoltageScaling (mv : Nat) (s : State) : Result :=
  let old := s.pfBits O.CLK_STATUS 25 16
  if s.boot.ready && decide (700 ≤ mv) && decide (mv ≤ 800) && decide (mv ≤ old + 10) && decide (old ≤ mv + 10) then
    fin (({ s with safety := { s.safety with vddLow := min mv s.safety.vddLow } } : State).pfSet O.CLK_STATUS 25 16 mv)
  else fin s

/-- A host write of CDC_INST_MODE of instance n (R518, R520). -/
def State.cdcInst (s : State) (n : Nat) (v : Word) : State :=
  if s.inUse n then s.pfOr O.CDC_STATUS 2 else s.pfSet (O.CDC_INST_MODE + 4 * n) 0 0 (wbits v 0 0)

/-- CDC_INST_MODE_WRITE (R518). -/
def execCdcInstModeWrite (n : Nat) (v : Word) (s : State) : Result :=
  if n < 512 then fin (s.hostWrite .pf (.pf (O.CDC_INST_MODE + 4 * n)) 4 v.toNat fun s => s.cdcInst n v) else fin s

end Sys2Proof.Machine
end

