-- ==== Sys2Proof/Machine/SafetyRows.lean ====
section
/-! DEFINITION. The commands of the monitors and of fault forcing (17_safety.md, R522 to R540), and of the memories' error checks
(13_memory.md, R406 to R418). -/
namespace Sys2Proof.Machine

/-- The monitors run: power is good and PERST# is deasserted (R535, R544). -/
def State.watching (s : State) : Bool := s.boot.powered && !s.boot.perst

/-- LOCKSTEP_MISMATCH (R522, R533): a pair that has halted compares nothing. -/
def execLockstepMismatch (k : Nat) (s : State) : Result :=
  if decide (k < 2) && s.watching && !s.safety.halted.contains k then fin (s.foundChip k 0) else fin s

/-- MGT_HEARTBEAT (R522, R535). -/
def execMgtHeartbeat (s : State) : Result :=
  if s.watching && s.safety.halted.isEmpty then fin { s with safety := { s.safety with beat := true } } else fin s

/-- MGT_WATCHDOG (R522): pair 1 has seen no strike for 10 ms. -/
def execMgtWatchdog (s : State) : Result :=
  if s.watching && !s.safety.halted.contains 1 then fin (s.foundChip 2 0) else fin s

/-- The number of a clock in the monitors' counts. -/
def clockIndex : ClockName → Nat
  | .root => 0 | .fclk => 1 | .cclk => 2 | .gclk => 3 | .mclk => 4 | .hbm => 5 | .pcie => 6 | .reference => 7
  | .video => 8 | .audio => 9

/-- The lock bit of CLK_STATUS of a clock that has a PLL (R520). -/
def lockBit : ClockName → Option Nat
  | .root => some 0 | .hbm => some 1 | .pcie => some 2 | .video => some 3 | .audio => some 4
  | _ => none

/-- What a clock counts in a window of 2 us by its nominal frequency (R24, R496, R523); none for the VIDEO and AUDIO PLLs, which no
monitor counts. -/
def State.nominal (s : State) (c : ClockName) : Option Nat :=
  match c with
  | .root => some 9600
  | .fclk => some (if s.quiet then 3200 else 4800)
  | .cclk => some (if s.quiet then 2400 else 3200)
  | .gclk => some (if s.quiet then 1920 else 2400)
  | .mclk => some 1600
  | .hbm => some 8000
  | .pcie => some (Config.pcieCount s.host.rate)
  | .reference => some Config.referenceCount
  | .video | .audio => none

/-- A count falls outside 2 % of its nominal value (R523). -/
def State.countBad (s : State) (c : ClockName) (count : Nat) : Bool :=
  match s.nominal c with
  | some n => decide (100 * count < 98 * n) || decide (102 * n < 100 * count)
  | none => false

/-- One window of a clock monitor (R523): `count` is what it counted, `lost` a PLL out of lock or a reference that has stopped. A fault
of the VIDEO or AUDIO PLL is its loss of lock (DEDUCED, log entry 71). ROOT does not relock until device reset (R496). -/
def State.clockWindow (s : State) (c : ClockName) (count : Nat) (lost : Bool) : State :=
  let k := clockIndex c
  let gone := lost && ((lockBit c).isSome || c == .reference)
  let old := s.safety.clockBad.get zeroAt k
  let run := if gone then 2 else if s.countBad c count then min 2 (old + 1) else 0
  let s : State := { s with safety := { s.safety with clockBad := s.safety.clockBad.set zeroAt k run } }
  let s := match lockBit c with
    | some b => if c = .root && !lost then s else s.pfSet O.CLK_STATUS b b (b2n !lost)
    | none => s
  if k < 8 then (if old < 2 && run = 2 then s.foundChip 3 0 else s)
  else
    let av := decide (s.safety.clockBad.get zeroAt 8 = 2) || decide (s.safety.clockBad.get zeroAt 9 = 2)
    let s : State := { s with safety := { s.safety with avClock := av } }
    if av then s.blackout else s

/-- CLOCK_MONITOR_WINDOW (R523). -/
def execClockMonitorWindow (c : ClockName) (count : Nat) (lost : Bool) (s : State) : Result :=
  if s.watching then fin (s.clockWindow c count lost) else fin s

/-- The window of a rail in uV (R524). -/
def State.railWindow (s : State) (r : Rail) : Nat × Nat :=
  match r with
  | .core => (1000 * (s.safety.vddLow - 40), 840000)
  | .sram => (760000, 840000)
  | .io => (1600000, 3780000)
/-- The number of a rail in the monitors' counts. -/
def railIndex : Rail → Nat
  | .core => 0 | .sram => 1 | .io => 2

/-- A sample of VDD_CORE within 10 mV of the target stands for POWER_GOOD, after which the lower limit follows the target
(R524; 19_electrical.md; DEDUCED). -/
def State.followTarget (s : State) (r : Rail) (uv : Nat) : State :=
  let t := s.pfBits O.CLK_STATUS 25 16
  if r = .core && decide (1000 * (t - 10) ≤ uv) && decide (uv ≤ 1000 * (t + 10)) then
    { s with safety := { s.safety with vddLow := t } }
  else s

/-- VOLTAGE_SAMPLE (R524): four samples in a row outside the window. -/
def execVoltageSample (rail : Rail) (uv : Nat) (s : State) : Result :=
  if !s.watching then fin s else
  let s := s.followTarget rail uv
  let (lo, hi) := s.railWindow rail
  let k := railIndex rail
  let old := s.safety.voltBad.get zeroAt k
  let run := if uv < lo || decide (hi < uv) then min 4 (old + 1) else 0
  let s : State := { s with safety := { s.safety with voltBad := s.safety.voltBad.set zeroAt k run } }
  if run = 4 && decide (old < 4) then fin (s.foundChip 4 0) else fin s

/-- TEMP_CROSSING (R525). -/
def execTempCrossing (level : TempLevel) (s : State) : Result :=
  if !s.watching then fin s else
  match level with
  | .warn => fin { s with safety := { s.safety with tempWarn := true } }
  | .warnClears => fin { s with safety := { s.safety with tempWarn := false } }
  | .fault => fin (s.foundChip 5 0)

/-- THERMTRIP (R525, R544): the input does not act while the device is in reset. -/
def execThermtrip (s : State) : Result :=
  if s.watching then fin (s.foundChip 6 0) else fin s

/-- A wipe of Vault areas starts and ends (R413, R414). -/
def State.wipes (s : State) : State := s.pfCount O.POOL_VAULT_STATUS 15 8 1

/-- TAMPER_ASSERT (R413, R414, R525, R544): in reset and during boot it is noted; else the Vault is wiped whole. -/
def execTamperAssert (i : Nat) (s : State) : Result :=
  if 2 ≤ i || !s.boot.powered then fin s else
  let s := s.pfOr O.POOL_VAULT_STATUS (2 ^ (30 + i))
  if s.boot.perst || !s.boot.ready then fin { s with safety := { s.safety with tamperNow := s.safety.tamperNow.set i true } } else
  fin (({ s with vault := { wipeEnd := true } } : State).pfSet O.POOL_VAULT_STATUS 16 16
    1)

/-- TAMPER_WIPE_DONE (R413, R525). -/
def execTamperWipeDone (s : State) : Result :=
  if !s.vault.wipeEnd then fin s else
  fin (((({ s with vault := { s.vault with wipeEnd := false } } : State).pfSet O.POOL_VAULT_STATUS 16 16 0).wipes).foundChip 7 0)

/-- HBM_LINK_LOSS (R420, R532). -/
def execHbmLinkLoss (s : State) : Result :=
  if s.pfBits O.HBM_STATUS 31 31 = 1 then
    fin ((s.pfSet O.HBM_STATUS 31 31 0).foundChip 9 0)
  else fin s

/-- A write of SAF_FORCE (R540); INST of an instance that is absent or clamped makes the write do nothing. -/
def State.safForce (s : State) (v : Word) : State :=
  let n := wbits v 8 0
  let inst := tb v.toNat 9
  if wbits v 31 16 ≠ 0x5AFE then s.pfCount O.SAF_CLAMP_COUNT 31 0 1
  else if inst && !s.admitted n then s
  else
    let s := s.pfSet O.SAF_FORCE 8 0 n
    let s := if inst then s.foundFault n 0x0E 0 else s
    if tb v.toNat 10 then s.foundChip 11 0 else s

/-- SAF_FORCE (R540). -/
def execSafForce (v : Word) (s : State) : Result := fin (s.hostWrite .pf (.pf O.SAF_FORCE) 4 v.toNat fun s => s.safForce v)

/-- A word of a memory loses one bit or two. Whether a second single bit is the one that is corrupted already is a free value: R411
does not say which bit INJECT_CE takes (DESIGN CHOICE, log entry 70). -/
def State.corrupt (s : State) (x : WordAt) (double : Bool) : State :=
  let (ce, ue) := s.badOf x.mem
  let w := x.word
  if ue.contains w then s
  else if double then s.setBad x.mem (ce.filter (· != w)) (w :: ue)
  else if ce.contains w then
    let (f, s) := s.fresh
    if tb f.toNat 0 then s.setBad x.mem (ce.filter (· != w)) (w :: ue) else s
  else s.setBad x.mem (w :: ce) ue

/-- A corrupted word that a scrubber reads (R406 to R408, R417, R418, R529, R532). -/
def State.scrubWord (s : State) (m : MemId) (w : Nat) : State :=
  let (ue, s) := s.eccWord m 1 w
  if !ue then s else
  match m with
  | .leaf _ _ => s.ueMet 0xFFFF 3 ⟨m, w⟩
  | .vault | .ext => s.foundChip 8 (s.errAddr ⟨m, w⟩)
  | .pool | .hbm =>
    match s.wordOwner ⟨m, w⟩ with
    | some n => s.foundFault n (if m = .hbm then 4 else 3) (8 * w)
    | none => if (if m = .hbm then decide (8 * w < 0x10000000) else decide (0x6000000 ≤ 8 * w)) then s.foundChip 8 (8 * w) else s

/-- Numbers in ascending order. -/
def ascending (l : List Nat) : List Nat :=
  l.foldr (fun x r => r.takeWhile (fun y => decide (y < x)) ++ x :: r.dropWhile (fun y => decide (y < x))) []

/-- The corrupted words of a memory that a scrubber reads in turn, in order of address. -/
def State.scrubWords (s : State) (m : MemId) (turn : Nat → Bool) : State :=
  (ascending (((s.badOf m).1 ++ (s.badOf m).2).filter turn)).foldl (fun s w => s.scrubWord m w) s

/-- One step of the Pool scrubber (R399, R408): row r of every bank. -/
def State.scrubStep (s : State) : State :=
  let r := s.pfBits O.POOL_SCRUB_STATUS 12 0
  let s := s.scrubWords .pool fun w => w / 2048 == r
  let s := s.pfSet O.POOL_SCRUB_STATUS 12 0 ((r + 1) % 8192)
  if r = 8191 then s.pfSet O.POOL_SCRUB_STATUS 31 16 (s.pfBits O.POOL_SCRUB_STATUS 31 16 + 1) else s

/-- One step of the scrubbers of the Vault and, while FAB is powered, of the Extent Table SRAM: each reads an equal share of its words
in every step (R408, R500; DESIGN CHOICE, log entry 70: the share of a step). -/
def State.sramStep (s : State) : State :=
  let r := s.mem.sramRow
  let s := s.scrubWords .vault fun w => w / 64 == r
  let s := if s.powered 0 then s.scrubWords .ext fun w => w / 32 == r else s
  { s with mem := { s.mem with sramRow := (r + 1) % 8192 } }

/-- SCRUB_STEP (R408): the words that were corrupted since the last step, and one step of each scrubber whose domain is powered. -/
def execScrubStep (s : State) (upsets : List (WordAt × Bool) := []) : Result :=
  if !s.boot.ready then fin s else
  let s := (upsets.foldl (fun s x => s.corrupt x.1 x.2) s).sramStep
  if [1, 2, 3, 4].all s.powered then fin s.scrubStep else fin s

/-- HBM_PATROL_SCRUB (R418): the whole stack is read in order of address, the cache frames last (R416). -/
def execHbmPatrolScrub (s : State) : Result :=
  if s.pfBits O.HBM_STATUS 31 31 = 0 || !s.powered 13 then fin s else
  let s := s.scrubWords .hbm fun _ => true
  fin ((s.mem.leaves.map fun x => MemId.leaf x.extent x.leaf).foldl (fun s m => s.scrubWords m fun _ => true) s)

/-- The word at POOL_INJ_ADDR, if an injection acts on it: in the quota of an instance that is not Playing (R411). -/
def State.injectWord (s : State) : Option Nat :=
  let w := s.pfBits O.POOL_INJ_ADDR 26 3
  if 8 * w < 0x6000000 then
    match s.poolOwner (8 * w) with
    | some n => if (s.inst n).rung = .playing then none else some w
    | none => none
  else none

/-- Corrupt check bits of the word at POOL_INJ_ADDR (R411). -/
def State.inject (s : State) (ue : Bool) : State :=
  match s.injectWord with
  | none => s
  | some w => s.corrupt ⟨.pool, w⟩ ue

/-- INJECT_CE (R411): the host writes INJECT_CE of POOL_ECC_CTRL. -/
def execInjectCe (s : State) : Result := fin (s.hostWrite .pf (.pf O.POOL_ECC_CTRL) 4 (orBits (s.pf O.POOL_ECC_CTRL) 1).toNat fun s => s.inject false)
/-- INJECT_UE (R411). -/
def execInjectUe (s : State) : Result := fin (s.hostWrite .pf (.pf O.POOL_ECC_CTRL) 4 (orBits (s.pf O.POOL_ECC_CTRL) 2).toNat fun s => s.inject true)

end Sys2Proof.Machine
end

