-- ==== Sys2Proof/Machine/SerferRows.lean ====
section
/-! DEFINITION. The commands of the Serfer block (02_serfer_images.md, R52 to R78). -/
namespace Sys2Proof.Machine

/-- LOAD_HOST (R54, R56): one command for each phase, and for each step of phase 5. `image` is what the host's memory answers in
phase 1, none where a read fails. -/
def execLoadHost (image : Option (List Byte)) (ms avs : Nat) (cut : Option Bool) (s : State) : Result :=
  match s.opRuns 1 with
  | none => fin s
  | some o =>
    if o.phase ≠ 1 then fin (s.loadPhase o ms avs cut)
    else if !s.pfTraffic || !s.workTurn o.seq then fin s
    else match image with
      | none => fin (s.endOp 0x11 ms)
      | some b => fin (s.opFetched o (b.take (s.pfBits O.MGT_IMG_LEN 18 0)) ms)

/-- LOAD_SLOT (R56): one command for each phase, and for each step of phase 5. -/
def execLoadSlot (ms avs : Nat) (cut : Option Bool) (s : State) : Result :=
  match s.opRuns 2 with
  | none => fin s
  | some o =>
    if o.phase ≠ 1 then fin (s.loadPhase o ms avs cut)
    else if !(s.slotAt o.slot).valid then fin (s.endOp 0x12 ms)
    else fin (s.opFetched o (s.slotAt o.slot).image ms)

/-- The slot is written with the image in staging, and the operation ends (R56, R66, R67, R77). -/
def State.writeSlot (s : State) (o : MgtOp) (ms : Nat) : State :=
  let b := s.vault.staging
  let w := min 0x3FFFFFFF ((s.slotAt o.slot).writes + 1)
  ((s.setSlot o.slot { image := b.take (512 + bodySize b), valid := true, writes := w }).logEntry 2 o.slot 0 w).endOp 0 ms

/-- One step of phases 2 and 3 of WRITE_SLOT or SEAL_SLOT over the image in staging (R56). `next` follows phase 3. -/
def State.verify (s : State) (o : MgtOp) (ms : Nat) (next : State → State) : State :=
  let (ue, s) := s.stagingRead
  if ue then s
  else if o.phase = 2 then
    (if checkImage s.vault.staging ≠ 0 then s.endOp (checkImage s.vault.staging) ms else s.opOn { o with phase := 3 } ms)
  else if checkKey s.fuses s.vault.staging ≠ 0 then s.endOp (checkKey s.fuses s.vault.staging) ms
  else next s

/-- WRITE_SLOT (R56, R66, R67, R77): one command for each phase; the write of the slot comes with the end of phase 3. DEDUCED: the
sealed slot is refused before the fetch (log entry 30). -/
def execWriteSlot (image : Option (List Byte)) (ms : Nat) (s : State) : Result :=
  match s.opRuns 3 with
  | none => fin s
  | some o =>
    if o.phase ≠ 1 then fin (s.verify o ms fun s => s.writeSlot o ms)
    else if s.isSealed o.slot then fin (s.endOp 0x13 ms)
    else if !s.pfTraffic || !s.workTurn o.seq then fin s
    else match image with
      | none => fin (s.endOp 0x11 ms)
      | some b => fin (s.opFetched o (b.take (s.pfBits O.MGT_IMG_LEN 18 0)) ms)

/-- The refusals of a sealed commit after the image has been verified again, and else its FUSE_INTENT (R55, R69, R72, R78). -/
def State.sealBegin (s : State) (o : MgtOp) (ms : Nat) (cut : Option Bool) : State :=
  if s.pfBits O.MGT_FUSE_ARM 3 0 = 0 then s.endOp 0x14 ms
  else if 32 ≤ s.fuses.commits.length then s.endOp 0x15 ms
  else ((s.logEntry 4 Config.sealLogArg 0 (s.fuses.commits.length + 1) true).opOn { o with phase := 5, burn := 1 } ms).cutEntry cut

/-- The burn of a sealed commit, and then its FUSE_DONE (R69, R72, R78). -/
def State.sealBurn (s : State) (o : MgtOp) (ms : Nat) (cut : Option Bool) : State :=
  let b := s.vault.staging
  if o.burn = 1 then
    ((s.pfSet O.MGT_FUSE_ARM 3 0 (s.pfBits O.MGT_FUSE_ARM 3 0 - 1)).opOn { o with burn := 2 } ms).cutBurn
      { s.fuses with commits := s.fuses.commits ++ [⟨o.slot, imgId b, (imgHash b).take 16⟩] } cut
  else
    let t := s.logEntry 5 Config.sealLogArg 0 s.fuses.commits.length true
    match cut with
    | none => t.endOp 0 ms
    | some _ => t.cutEntry cut

/-- SEAL_SLOT (R56, R69): one command for each phase and for each step of the burn: the slot image is verified again, and then one
commit is burned. DEDUCED: the order of the results (log entry 30). -/
def execSealSlot (ms : Nat) (cut : Option Bool) (s : State) : Result :=
  match s.opRuns 4 with
  | none => fin s
  | some o =>
    if o.phase = 1 then
      (if !(s.slotAt o.slot).valid then fin (s.endOp 0x12 ms) else fin (s.opFetched o (s.slotAt o.slot).image ms))
    else if o.phase = 5 then fin (s.sealBurn o ms cut)
    else fin (s.verify o ms fun s => s.sealBegin o ms cut)

/-- ERASE_SLOT (R56, R66, R77); an erase is no write that WRITES counts (DEDUCED). -/
def execEraseSlot (ms : Nat) (s : State) : Result :=
  match s.opRuns 5 with
  | none => fin s
  | some o =>
    if s.isSealed o.slot then fin (s.endOp 0x13 ms)
    else
      let w := (s.slotAt o.slot).writes
      fin (((s.setSlot o.slot { image := [], valid := false, writes := w }).logEntry 3 o.slot 0 w).endOp 0 ms)

/-- A write of MGT_FUSE_ARM (R72). -/
def State.fuseArm (s : State) (v : Word) : State :=
  if wbits v 31 16 = 0xF05E then s.setPf O.MGT_FUSE_ARM (v &&& 0xF)
  else (s.setPf O.MGT_FUSE_ARM 0).pfCount O.MGT_CLAMP_COUNT 31 0 1

/-- FUSE_ARM (R72). -/
def execFuseArm (v : Word) (s : State) : Result := fin (s.hostWrite .pf (.pf O.MGT_FUSE_ARM) 4 v.toNat fun s => s.fuseArm v)

/-- The log entry at index i (R76). -/
def State.logAt (s : State) (i : Nat) : Option LogEntry := s.mram.log.find? fun e => (e.seq - 1) % 4096 == i

/-- A read of the Serfer block (R52 to R77). -/
def State.mgtValue (s : State) (off : Nat) : Word :=
  let w := s.pf off
  if off = O.MGT_IMG_STATUS then (match s.op with | some o => wset (wset w 31 31 1) 26 24 o.phase | none => w)
  else if off = O.MGT_FUSE_COUNTS then
    BitVec.ofNat 32 (s.fuses.lifecycle * 2 ^ 30 + s.fuses.floor * 2 ^ 24 + popCount 16 s.fuses.revoked * 2 ^ 16 + s.fuses.commits.length)
  else if off = O.MGT_KEY_STATE then
    BitVec.ofNat 32 (((List.range 16).filter s.fuses.holds).foldl (fun a k => a + 2 ^ (16 + k)) 0 + s.fuses.revoked)
  else if off = O.MGT_LOADED_ID_LO then BitVec.ofNat 32 s.image.id
  else if off = O.MGT_LOADED_ID_HI then BitVec.ofNat 32 (s.image.id / 2 ^ 32)
  else if off = O.MGT_ADMIT then BitVec.ofNat 32 (s.image.mode * 2 ^ 30 + s.image.clamped * 65536 + s.image.admitted)
  else if off = O.MGT_SEALED then
    match s.sealed with | some c => BitVec.ofNat 32 (2 ^ 31 + c.slot) | none => 0
  else if off = O.MGT_LOG_HEAD_LO then BitVec.ofNat 32 s.mram.head
  else if off = O.MGT_LOG_HEAD_HI then BitVec.ofNat 32 (s.mram.head / 2 ^ 32)
  else if O.MGT_SLOT_INFO ≤ off && decide (off < O.MGT_SLOT_INFO + 32) then
    let k := (off - O.MGT_SLOT_INFO) / 4
    let x := s.slotAt k
    BitVec.ofNat 32 (b2n x.valid * 2 ^ 31 + b2n (s.isSealed k) * 2 ^ 30 + x.writes)
  else if O.MGT_REPORT ≤ off && decide (off < O.MGT_REPORT + 2048) then presenceWord (s.inst ((off - O.MGT_REPORT) / 4)).adm
  else if O.MGT_LOG ≤ off then
    match s.logAt ((off - O.MGT_LOG) / 32) with
    | some e => BitVec.ofNat 32 (field e.bytes ((off - O.MGT_LOG) % 32) 4)
    | none => 0
  else w

end Sys2Proof.Machine
end

