-- ==== Sys2Proof/Machine/RegRows.lean ====
section
/-! DEFINITION. Reads and writes of registers by address (00_scope.md, R3 to R9, R13): the registers of PF BAR0 as the host reads
and writes them, and the commands REGISTER_WRITE and READ_CLEAR. -/
namespace Sys2Proof.Machine

/-- The CLAMP_COUNT of the block of PF BAR0 that holds an offset (R8); the stream, Pool and HBM blocks have none. -/
def clampOf (off : Nat) : Option Nat :=
  match off / 0x100000 with
  | 1 => some O.MGT_CLAMP_COUNT
  | 2 => some O.VID_SCH_CLAMP_COUNT
  | 3 => some O.CMP_BELL_CLAMP_COUNT
  | 7 => some O.EXT_CLAMP_COUNT
  | 8 => some (if 0x880000 ≤ off then O.HST_MV_CLAMP_COUNT else O.HST_CLAMP_COUNT)
  | 9 => some O.PWR_CLAMP_COUNT
  | 10 => some O.SAF_CLAMP_COUNT
  | 12 => some O.ICU_C_CLAMP_COUNT
  | 13 => some O.MGT_MBX_CLAMP_COUNT
  | _ => none

/-- A write that acts by the access types of the fields alone (R5, R7, R8). -/
def State.plainWrite (s : State) (r : RegSpec) (off : Nat) (v : Word) : State :=
  let (w, k) := r.write (s.pf off) v
  let s := s.setPf off w
  match clampOf off with
  | some c => s.pfCount c 31 0 k
  | none => s

/-- A write of the registers of the PF completion ring (R470, R471, R494, R495). -/
def State.cqWrite (s : State) (r : RegSpec) (off : Nat) (v : Word) : State :=
  let on := tb (s.pf O.HST_PF_CQ_CTRL).toNat 0
  if off = O.HST_PF_CQ_CTRL then
    let s := s.setPf off (v &&& 1)
    if on || !tb v.toNat 0 then s
    else ({ (s.setPf O.HST_PF_CQ_DEV_PTR 0).setPf O.HST_PF_CQ_DB 0 with host := { s.host with cqPhase := true, cqSeq := 0 } }
      : State).moverRetry
  else if off = O.HST_PF_CQ_DB then
    let len := s.cqLen
    let c := min (wbits v 21 0) (len - 1)
    let s := if len ≤ wbits v 21 0 then s.pfCount O.HST_CLAMP_COUNT 31 0 1 else s
    let held (x : Nat) : Nat := (s.pfBits O.HST_PF_CQ_DEV_PTR 21 0 + len - x % len) % len
    if held (s.pfBits O.HST_PF_CQ_DB 21 0) < held c then s.pfOr O.HST_ERR_STATUS 1
    else (s.setPf off (BitVec.ofNat 32 c)).moverRetry
  else if on then s.pfOr O.HST_ERR_STATUS 2
  else s.plainWrite r off v

/-- A write of POOL_ECC_CTRL (R411). -/
def State.eccCtrl (s : State) (r : RegSpec) (v : Word) : State :=
  let s := s.plainWrite r O.POOL_ECC_CTRL v
  let s := if tb v.toNat 0 then s.inject false else s
  if tb v.toNat 1 then s.inject true else s

/-- A write of a register of PF BAR0, item k of `r` at offset `off`, by the host: what the chapters give it, or by access type. -/
def State.regWrite (s : State) (r : RegSpec) (k off : Nat) (v : Word) : State :=
  if off = O.MGT_IMG_CTRL then s.imgCtrl v
  else if off = O.MGT_FUSE_ARM then s.fuseArm v
  else if r.off = O.VID_PACE_CTRL then s.paceCtrl k v
  else if r.off = O.CMP_BELL_COMMIT then s.bellCommit k v
  else if off = O.POOL_ECC_CTRL then s.eccCtrl r v
  else if off = O.EXT_CMD then s.extCmdWrite v
  else if r.off = O.EXT_SPAN_FIRST then s.extSpan k false v
  else if r.off = O.EXT_SPAN_COUNT then s.extSpan k true v
  else if O.HST_PF_CQ_LO ≤ off && decide (off ≤ O.HST_PF_CQ_CTRL) || off = O.HST_PF_CQ_DB then s.cqWrite r off v
  else if r.off = O.HST_MV_TAIL then s.moverTail k v
  else if r.off = O.HST_MV_RING_CTRL then s.moverCtrl k v
  else if off = O.PWR_CTRL then s.pwrCtrl v
  else if r.off = O.CDC_INST_MODE then s.cdcInst k v
  else if off = O.SAF_FORCE then s.safForce v
  else if off = O.SAF_TEST_REQ then s.testRequest v
  else if off = O.MGT_MBX_CMD then s.mbxCmd v
  else s.plainWrite r off v

/-- The PF MSI-X table or PBA lies at an offset (R494). -/
def pfMsixAt (off : Nat) : Bool := decide (0x804000 ≤ off) && decide (off < 0x805020)
/-- The MSI-X table or PBA of a VF lies at an offset of BAR2 (R472). -/
def vfMsixAt (off : Nat) : Bool := decide (0x20000 ≤ off) && decide (off < 0x21008)

/-- A 32-bit write of PF BAR0 below the windows by the host (R4, R465). -/
def State.pfWrite (s : State) (off : Nat) (v : Word) : State :=
  if 0x804000 ≤ off && decide (off < 0x805000) then
    ({ s with host := { s.host with msix := s.host.msix.set msixReset (off - 0x804000) (msixKeep (off - 0x804000) v) } }
      : State).pfMsixFlush
  else if 0xB00000 ≤ off && decide (off < 0xC00000) then s.gpioWrite .host off v
  else match findReg pfRegs off with
    | none => s
    | some (r, k) => s.regWrite r k off v

/-- Reads of the scheduler, Bell, stream, Pool, HBM and Extent Table blocks. -/
def State.engineValue (s : State) (off : Nat) : Word :=
  let w := s.pf off
  let item (base stride : Nat) : Admit := (s.inst ((off - base) / stride)).adm
  let ok (a : Admit) (v : Nat) : Word := if a.state = 2 then BitVec.ofNat 32 v else 0
  if off = O.VID_SCH_STATUS then
    BitVec.ofNat 32 (((List.range 20).filter s.rendActive).length * 65536 + s.insts.foldl (fun a e => a + e.2.jobs.length) 0)
  else if O.STR_CMP_STATUS ≤ off && decide (off < O.STR_CMP_STATUS + 16) then
    let g := (off - O.STR_CMP_STATUS) / 4
    BitVec.ofNat 32 (b2n (s.image.groups.any fun m => tb m g) * 2 ^ 31 + (s.eng.cmpQ.filter fun q => q.set == g).length)
  else if O.POOL_QUOTA ≤ off && decide (off < O.POOL_QUOTA + 2048) then
    let a := item O.POOL_QUOTA 4
    ok a (a.pool * 65536 + a.vram)
  else if off = O.HBM_STATUS then wset w 30 30 (b2n (tb w.toNat 31 && !s.powered 13))
  else if O.HBM_REGION_BASE ≤ off && decide (off < O.HBM_REGION_BASE + 28) then
    BitVec.ofNat 32 (s.image.bases.getD ((off - O.HBM_REGION_BASE) / 4) 0 / 65536)
  else if O.HBM_INST_WORK ≤ off && decide (off < O.HBM_INST_WORK + 8192) then
    let a := item O.HBM_INST_WORK 16
    if off % 16 = 0 then ok a (a.workB / 65536) else if off % 16 = 4 then ok a (a.strmB / 65536)
    else if off % 16 = 8 then ok a (2 ^ 31 + a.index) else 0
  else if off = O.EXT_CACHE_FRAMES then BitVec.ofNat 32 s.mem.leaves.length
  else if off = O.EXT_CACHE_DIRTY then BitVec.ofNat 32 (s.mem.leaves.filter (·.dirty)).length
  else if 0x780000 ≤ off && decide (off < 0x800000) then
    BitVec.ofNat 32 (s.mem.ext.get zeroAt (32768 * s.pfBits O.EXT_WIN_SEL 1 0 + (off - 0x780000) / 16) / 2 ^ (8 * (off % 16)))
  else w

/-- Mover channel k holds work (R391, R396): packets, bypass blocks and pending INPUT entries of its VFs; a PF ring's descriptors;
and for channels 20 to 23 the reads of command rings, leaves, instance state and images that wait, the oldest on channel 20 (DESIGN
CHOICE, log entry 69: which of them holds which work), and a MOVER entry that waits. -/
def State.chBusy (s : State) (k : Nat) : Bool :=
  if k < 16 then
    (s.insts.any fun e => e.1 % 16 == k && (e.2.nextPacket.isSome || !e.2.vf.bypQ.isEmpty || decide (0 < e.2.vf.ringPending 0)))
  else if k < 20 then s.host.descs.any (fun d => d.ring == k - 16) || decide (0 < s.mvPending (k - 16))
  else
    let leaves := (s.insts.filterMap fun e => s.leafAwaited e.1).eraseDups
    decide (k - 20 < s.works.length + leaves.length + (s.insts.filter fun e => s.cmdDue e.1).length
      + b2n (s.host.descs.any (·.waits)))

/-- Reads of the host interface block (R396, R495). -/
def State.hstValue (s : State) (off : Nat) : Word :=
  let w := s.pf off
  if 0x804000 ≤ off && decide (off < 0x805000) then s.host.msix.get msixReset (off - 0x804000)
  else if 0x805000 ≤ off && decide (off < 0x805020) then BitVec.ofNat 32 (s.host.pba / 2 ^ (8 * (off - 0x805000)))
  else if off = O.HST_LINK_STATUS then
    let h := s.host
    if h.linkUp then wset (wset (wset (wset w 31 31 1) 30 30 (b2n h.flit)) 27 24 h.rate) 19 16 h.lanes else w
  else if off = O.HST_ERR_STATUS then wset w 2 2 (b2n (s.host.descs.any (·.waits)))
  else if O.HST_VF_SUMMARY ≤ off && decide (off < O.HST_VF_SUMMARY + 2048) then
    let n := (off - O.HST_VF_SUMMARY) / 4
    let v := (s.inst n).vf
    let en := loop 5 (fun r m => if tb (v.reg (O.HST_VF_RING_CTRL + 32 * r)).toNat 0 then m + 2 ^ r else m) 0
    BitVec.ofNat 32 (b2n v.flr * 2 ^ 31 + b2n v.bme * 2 ^ 30 + en * 2 ^ 25 + v.rbits O.HST_VF_STATUS 9 5 * 2 ^ 20 + n % 16 * 2 ^ 16)
  else if O.HST_MV_CH_STATUS ≤ off && decide (off < O.HST_MV_CH_STATUS + 96) then
    let k := (off - O.HST_MV_CH_STATUS) / 4
    let blk := if k < 16 then s.chBlocked k else none
    BitVec.ofNat 32 (b2n (s.chBusy k) * 2 ^ 31 + b2n (decide (16 ≤ k)) * 2 ^ 30 + b2n blk.isSome * 2 ^ 29 + blk.getD 0)
  else w

/-- HEALTH (R535): ready with the sealed default run and a heartbeat seen, and no chip fault. -/
def State.booted (s : State) : Bool := s.boot.ready && !s.boot.recovery
/-- The level driven on HEALTH (R535). -/
def State.healthy (s : State) : Bool := s.booted && s.safety.beat && !s.chipFault

/-- Reads of the safety block (R536, R540). -/
def State.safValue (s : State) (off : Nat) : Word :=
  let w := s.pf off
  let map (base : Nat) : Nat := (off - base) / 4
  if off = O.SAF_STATUS then wset (wset w 30 30 (b2n s.healthy)) 29 29 (b2n s.booted)
  else if off = O.SAF_REC_HEAD then BitVec.ofNat 32 s.safety.head
  else if O.SAF_BELL_MAP ≤ off && decide (off < O.SAF_BELL_MAP + 64) then
    BitVec.ofNat 32 (loop 32 (fun b m => if s.bellBad (32 * map O.SAF_BELL_MAP + b) then m + 2 ^ b else m) 0)
  else if O.SAF_WHISTLE_MAP ≤ off && decide (off < O.SAF_WHISTLE_MAP + 64) then
    BitVec.ofNat 32 (s.groupBits (map O.SAF_WHISTLE_MAP) (·.whistleBad))
  else if O.SAF_FLASH_MAP ≤ off && decide (off < O.SAF_FLASH_MAP + 64) then
    BitVec.ofNat 32 (s.groupBits (map O.SAF_FLASH_MAP) (·.flashOn))
  else if O.SAF_REC ≤ off && decide (off < O.SAF_REC + 2048) then
    match s.safety.recs.find? fun r => (r.seq + 63) % 64 == (off - O.SAF_REC) / 32 with
    | some r => BitVec.ofNat 32 (field r.bytes ((off - O.SAF_REC) % 32) 4)
    | none => 0
  else w

/-- A 32-bit value of PF BAR0 below the windows as the host reads it (R4, R5, R465). -/
def State.pfValue (s : State) (off : Nat) : Word :=
  match off / 0x100000 with
  | 1 => s.mgtValue off
  | 2 | 4 | 5 | 6 | 7 => s.engineValue off
  | 8 => s.hstValue off
  | 9 => if off = O.CLK_STATUS then wset (s.pf off) 31 30 s.image.mode else s.pf off
  | 10 => s.safValue off
  | 11 => s.gpioValue off
  | 12 =>
    if O.ICU_C_PENDING ≤ off && decide (off < O.ICU_C_PENDING + 12) then
      s.pf off ||| BitVec.ofNat 32 (s.safety.levels / 2 ^ (8 * (off - O.ICU_C_PENDING)))
    else s.pf off
  | _ => s.pf off

/-- Clear the RC fields of a register that has been read (R5). -/
def State.pfReadRc (s : State) (off : Nat) : State :=
  match findReg pfRegs off with
  | some (r, _) => s.modPf off r.readClear
  | none => s

/-- The tags in use that HST_TAGS shows (R487, R495), from free values: how many of the reads that wait have been issued is a matter of
time; there are none without a read that waits, and never more than the class has (log entry 12). -/
def State.tagsUsed (s : State) (a b : Word) : Word :=
  let (c, d) := if s.host.flit then (256, 3840) else (64, 704)
  let use (busy : Bool) (most : Nat) (w : Word) : Nat := if busy then w.toNat % (most + 1) else 0
  BitVec.ofNat 32 (use ((List.range 8).any fun k => s.chBusy (16 + k)) d b * 65536 + use (s.insts.any fun e => s.inputDue e.1) c a)

/-- A 32-bit read of PF BAR0 below the windows (R5, R403, R406, R411, R420): the value, and the state after it. How many accesses
have collided since the last read of POOL_COLLIDED_COUNT, and the temperature of the stack, are free values. -/
def State.pfRead (s : State) (off : Nat) : Nat × State :=
  if off = O.HBM_STATUS && s.pfBits off 31 31 = 1 then
    let (t, s') := s.fresh
    ((wset (s.pfValue off) 7 0 (t.toNat % 256)).toNat, s')
  else if off = O.POOL_COLLIDED_COUNT then
    let (c, t) := s.fresh
    (c.toNat, t)
  else if 0x780000 ≤ off && decide (off < 0x800000) then
    match s.eccRange .ext 0 (524288 * s.pfBits O.EXT_WIN_SEL 1 0 + (off - 0x780000)) 4 with
    | (some u, t) => ((s.pfValue off).toNat, t.foundChip 8 (s.errAddr ⟨.ext, u / 8⟩))
    | (none, t) => ((s.pfValue off).toNat, t)
  else if off = O.HST_TAGS then
    let (a, t) := s.fresh
    let (b, t) := t.fresh
    ((s.tagsUsed a b).toNat, t)
  else ((s.pfValue off).toNat, s.pfReadRc off)

/-- The Bell surface window holds `width` bytes at an offset (R202, R207). -/
def surfaceAt (width off : Nat) : Bool :=
  decide (0x3A0000 ≤ off) && decide (off < 0x3A3000) && [1, 2, 4, 8].contains width && off % width == 0

/-- A write request of the host to PF BAR0 below the windows, of any width (R3, R207, R494). -/
def State.pfAccessWrite (s : State) (off width v : Nat) : State :=
  if surfaceAt width off then s.bellSurface (off - 0x3A0000) (leBytes width v)
  else if width = 4 && off % 4 = 0 then s.pfWrite off (BitVec.ofNat 32 v)
  else if width = 8 && off % 8 = 0 && pfMsixAt off then
    (s.pfWrite off (BitVec.ofNat 32 v)).pfWrite (off + 4) (BitVec.ofNat 32 (v / 2 ^ 32))
  else s

/-- A read request of the host to PF BAR0 below the windows, of any width (R3, R207, R494). -/
def State.pfAccessRead (s : State) (off width : Nat) : Nat × State :=
  if surfaceAt width off then
    let (n, a) := s.bellWindow
    (leNat (getBytes s.pool (a + (off - 0x3A0000)) width), s.readChecked n .pool (a + (off - 0x3A0000)) width)
  else if width = 4 && off % 4 = 0 then s.pfRead off
  else if width = 8 && off % 8 = 0 && pfMsixAt off then ((s.pfRead off).1 + 2 ^ 32 * (s.pfRead (off + 4)).1, s)
  else (0, s)

/-- A write request to VF BAR2, of any width (R3, R472). -/
def State.vfAccessWrite (s : State) (n off width v : Nat) : State :=
  if width = 4 && off % 4 = 0 then s.vfWrite n off (BitVec.ofNat 32 v)
  else if width = 8 && off % 8 = 0 && vfMsixAt off then
    (s.vfWrite n off (BitVec.ofNat 32 v)).vfWrite n (off + 4) (BitVec.ofNat 32 (v / 2 ^ 32))
  else s

/-- A read request to VF BAR2, of any width (R3, R472). -/
def State.vfAccessRead (s : State) (n off width : Nat) : Nat × State :=
  if width = 4 && off % 4 = 0 then s.vfRead n off
  else if width = 8 && off % 8 = 0 && vfMsixAt off then ((s.vfRead n off).1 + 2 ^ 32 * (s.vfRead n (off + 4)).1, s)
  else (0, s)

/-- A write that meets a register of the mirror's blocks, by path and address. -/
def State.landAt (s : State) (a : RegAddr) (width v : Nat) : State :=
  match a with
  | .pf off => s.pfAccessWrite off width v
  | .win n off => if width = 4 && off % 4 = 0 then s.hostWinWrite n off (BitVec.ofNat 32 v) else s
  | .bar2 n off => s.vfAccessWrite n off width v
  | .cfg _ _ => s

/-- A read that met the mirror clears the RC fields of its register (R5, R505). -/
def State.clearAt (s : State) (a : RegAddr) (width : Nat) : State :=
  match a with
  | .pf off => if width = 4 && off % 4 = 0 then s.pfReadRc off else s
  | .win n off => if width = 4 && off % 4 = 0 then (s.hostWinRead n off).2 else s
  | .bar2 n off => (s.vfAccessRead n off width).2
  | .cfg _ _ => s

/-- An access of the mirror is applied to its block; `acts` tells of the actions of wake writes. -/
def State.mirrorApply (s : State) (acts : Bool) (o : MirrorOp) : State :=
  match o with
  | .write _ a width v => s.landAt a width v
  | .read _ a width => s.clearAt a width
  | .act _ a width v => if acts then s.landAt a width v else s

/-- The registers of PF BAR0 and of BAR2 as the mirror holds them (R505): as they stood at the snapshot, when the HBM was not yet in
self-refresh, with the accesses since applied by the rules of each block. -/
def State.mirrorView (s : State) : State :=
  let t : State := { s with
    regs := loop 192 (fun k m => m.set pfReset (O.GPIO_IN + 4 * k) (s.power.mirror.get zeroAt (O.GPIO_IN + 4 * k))) s.regs }
  s.power.mirrorOps.foldl (fun s o => s.mirrorApply false o) (t.pfOr O.PWR_DOMAINS 0x2000)

/-- A read of the mirror's copy of a register of PF BAR0; the levels of GPIO_IN are those of the snapshot. -/
def State.pfMirrorRead (s : State) (off width : Nat) : Nat × State :=
  if width = 4 && (off == O.GPIO_IN || off == O.GPIO_IN + 4) && s.mirrored then ((s.power.mirror.get zeroAt off).toNat, s)
  else s.pfAccessRead off width

/-- The HPD inputs are taken as FAB comes back: what an output missed meanwhile acts now (R505, R544). -/
def State.hpdTaken (s : State) : State :=
  loop 2 (fun k s =>
    let now := s.pins.hpd.getD k false
    if tb (s.pf (O.DPO_STATUS + 16 * k)).toNat 31 = now then s else s.hpdTake k now) s

/-- At the end of an exit the accesses that met the mirror are applied to their blocks in order of arrival, before any other action,
and the actions of the wake writes start (R505, R506). -/
def State.applyMirror (s : State) : State :=
  if s.mirrored || decide (s.pwr = 4) then s else
  s.power.mirrorOps.foldl (fun s o => s.mirrorApply true o)
    ({ s.hpdTaken with power := { s.power with mirror := [], mirrorOps := [] } } : State)

/-- The agent of the GPIO block that a management pair is (R549). -/
def pairAgent (k : Nat) : Agent := if k = 0 then .mgt else .safe

/-- A write of `v` by a path to an address, `width` bytes wide. A program's byte, halfword and doubleword stores are rows of
their own (R314, R322). -/
def State.accessWrite (s : State) (p : Path) (a : RegAddr) (width v : Nat) : State :=
  let a := aimOf p a
  let whole (off : Nat) : Bool := width = 4 && off % 4 = 0
  if malformed p a width then s.malformedTlp else
  match p, a with
  | .pf, .cfg fn x | .vf, .cfg fn x => s.configure fun s => s.cfgWrite fn x v
  | _, .cfg _ _ => s
  | .mgt k, .pf off => s.hostWrite p a width v fun s => if whole off then s.gpioWrite (pairAgent k) off (BitVec.ofNat 32 v) else s
  | _, .win n off => if whole off then s.winRow p n off (BitVec.ofNat 32 v) else s.hostWrite p a width v id
  | _, .pf off => s.hostWrite p a width v fun s => s.pfAccessWrite off width v
  | _, .bar2 n off => s.hostWrite p a width v fun s => s.vfAccessWrite n off width v

/-- A read by a path of an address, `width` bytes wide. -/
def State.accessRead (s : State) (p : Path) (a : RegAddr) (width : Nat) : State :=
  let a := aimOf p a
  let whole (off : Nat) : Bool := width = 4 && off % 4 = 0
  if malformed p a width then s.malformedTlp else
  match p, a with
  | .pf, .cfg fn x | .vf, .cfg fn x => s.configure fun s =>
      if fn ≠ 0 && !s.vfExists fn then s.answered .unsupported else s.answered (.data (s.cfgValue fn x))
  | _, .cfg _ _ => s
  | .mgt _, .pf off => s.hostRead p a width id fun s => if whole off then ((s.gpioValue off).toNat, s.pfReadRc off) else (0, s)
  | _, .win n off => if whole off then s.winReadRow p n off else s.hostRead p a width id fun s => (0, s)
  | _, .pf off => s.hostRead p a width State.mirrorView fun s => s.pfMirrorRead off width
  | _, .bar2 n off => s.hostRead p a width State.mirrorView fun s => s.vfAccessRead n off width

/-- REGISTER_WRITE (R3 to R8, R13, R14); at a configuration item, a configuration request (R462, R464). -/
def execRegisterWrite (p : Path) (a : RegAddr) (width v : Nat) (s : State) : Result := fin (s.accessWrite p a width v)

/-- READ_CLEAR (R3 to R6): a read of a register, which clears its RC fields. -/
def execReadClear (p : Path) (a : RegAddr) (width : Nat) (s : State) : Result := fin (s.accessRead p a width)

end Sys2Proof.Machine
end

