-- ==== Sys2Proof/Machine/WakeRows.lean ====
section
/-! DEFINITION. The commands that take the chip between Run and Idle, and those that drain and ramp its domains, at whose end it reaches
Idle and the register mirror is applied (16_clocks_power_crossings.md, R502 to R512). -/
namespace Sys2Proof.Machine

/-- The idle conditions of R502. -/
def State.idleOk (s : State) : Bool :=
  !(s.insts.any fun e => e.2.rung == .playing && e.2.adm.state == 2) && !s.opBusy
    && (List.range 4).all (fun r => s.mvPending r == 0) && !(List.range 24).any s.chBusy
    && !(List.range 2).any fun k => s.dpoOn k && s.dpoUp k

/-- IDLE_ENTER (R502): the conditions hold, and have held for 100 us. -/
def execIdleEnter (s : State) : Result :=
  if s.pwr = 0 && s.power.goal.isNone && s.idleOk && s.boot.ready then fin (s.pfSet O.PWR_STATUS 31 29 1) else fin s
/-- IDLE_EXIT (R502). -/
def execIdleExit (s : State) : Result :=
  if s.pwr = 1 && s.power.goal.isNone && !s.idleOk then fin (s.pfSet O.PWR_STATUS 31 29 0) else fin s

/-- RAMP_START (R509). -/
def execRampStart (s : State) : Result := fin s.rampStart
/-- RAMP_END (R508, R509). -/
def execRampEnd (d : Nat) (s : State) : Result := fin (s.rampEnd d).applyMirror

/-- DRAIN_COMPLETE (R511): a draining domain without a transfer in flight goes off. -/
def execDrainComplete (d : Nat) (s : State) : Result :=
  if s.isDraining d && !s.host.descs.any (fun x => x.domains.contains d && !x.waits) then fin (s.drained d).applyMirror else fin s

/-- DRAIN_FORCED (R397, R511, R512): the domain is forced off, and the transfers in flight into or out of it end with
DRAIN_FORCED. -/
def execDrainForced (d : Nat) (s : State) : Result :=
  if !s.isDraining d then fin s else
  let force (x : Desc) : Desc := if x.domains.contains d && !x.waits && x.status == 0 then { x with status := 6 } else x
  let s : State := { s with host := { s.host with descs := s.host.descs.map force } }
  fin ((((s.pfCount O.PWR_DRAIN_FORCED 15 0 1).pfSet O.PWR_DRAIN_FORCED 19 16 d).chipEvent 8).drained d).applyMirror


end Sys2Proof.Machine
end

