-- ==== Sys2Proof/Machine/WindowRows.lean ====
section
/-! DEFINITION. The commands that read or write one register of an instance's window, by the host or by a program. -/
namespace Sys2Proof.Machine

/-- THREAD_RUN_WRITE (R337). -/
def execThreadRunWrite (p : Path) (n : Nat) (v : Word) (s : State) : Result := fin (s.winRow p n O.INST_THREAD_CTRL v)
/-- INST_T_REGISTER_WRITE (R341): `off` is the offset within the block of thread t. -/
def execInstTRegisterWrite (p : Path) (n t off : Nat) (v : Word) (s : State) : Result :=
  if t < 4 && decide (off < 0x100) && off % 4 = 0 then fin (s.winRow p n (0x400 + 0x100 * t + off) v) else fin s
/-- ICU_CLAIM (R356): thread t's next word loads ICU_CLAIM. -/
def execIcuClaim (n t : Nat) (s : State) : Result := fin (s.winReadRow (.prog t) n O.ICU_CLAIM)
/-- ICU_EOI (R357). -/
def execIcuEoi (p : Path) (n : Nat) (v : Word) (s : State) : Result := fin (s.winRow p n O.ICU_EOI v)
/-- ICU_SRC_CFG_WRITE (R351). -/
def execIcuSrcCfgWrite (p : Path) (n i : Nat) (v : Word) (s : State) : Result :=
  if i < 64 then fin (s.winRow p n (O.ICU_SRC_CFG + 4 * i) v) else fin s
/-- TIM_CTRL_WRITE (R366). -/
def execTimCtrlWrite (p : Path) (n i : Nat) (v : Word) (s : State) : Result :=
  if i < 4 then fin (s.winRow p n (O.TIM_CTRL + 32 * i) v) else fin s
/-- TIM_CAPT_READ (R369). -/
def execTimCaptRead (p : Path) (n i : Nat) (s : State) : Result :=
  if i < 4 then fin (s.winReadRow p n (O.TIM_CAPT + 32 * i)) else fin s
/-- EVT_SW (R375). -/
def execEvtSw (p : Path) (n : Nat) (v : Word) (s : State) : Result := fin (s.winRow p n O.EVT_SW v)
/-- VID_VC_LO_READ (R91, R580). -/
def execVidVcLoRead (p : Path) (n : Nat) (s : State) : Result := fin (s.winReadRow p n O.VID_VC_LO)
/-- VID_TIMING_WRITE (R92, R120). -/
def execVidTimingWrite (p : Path) (n : Nat) (v : Word) (s : State) : Result := fin (s.winRow p n O.VID_TIMING v)
/-- CMP_COMMIT (R187). -/
def execCmpCommit (p : Path) (n : Nat) (v : Word) (s : State) : Result := fin (s.winRow p n O.CMP_COMMIT v)
/-- BLT_SUBMIT (R215). -/
def execBltSubmit (p : Path) (n : Nat) (v : Word) (s : State) : Result := fin (s.winRow p n O.BLT_SUBMIT v)
/-- DMA_START (R382): a write of DMA_CTRL of channel i. -/
def execDmaStart (p : Path) (n i : Nat) (v : Word) (s : State) : Result :=
  if i < 4 then fin (s.winRow p n (O.DMA_CTRL + 32 * i) v) else fin s
/-- RESTART (R281): a write of AUD_V_CTRL of voice i. -/
def execAudRestart (p : Path) (n i : Nat) (v : Word) (s : State) : Result :=
  if i < 16 then fin (s.winRow p n (O.AUD_V_CTRL + 64 * i) v) else fin s
/-- AUD_SAMPLE_LO_READ (R298, R580). -/
def execAudSampleLoRead (p : Path) (n : Nat) (s : State) : Result := fin (s.winReadRow p n O.AUD_SAMPLE_LO)

end Sys2Proof.Machine
end

