-- ==== Sys2Proof/Machine/Dispatch.lean ====
section
/-! DEFINITION. One arm for each command: its meaning, by its full name. -/
namespace Sys2Proof.Machine
open Sys2Proof

def exec (i : Instr) (s : State) : Host.Outcome State Fault Refusal :=
  match i with
  | .registerWrite p a width v => Sys2Proof.Machine.execRegisterWrite p a width v s
  | .readClear p a width => Sys2Proof.Machine.execReadClear p a width s
  | .coldPowerUp straps => Sys2Proof.Machine.execColdPowerUp straps s
  | .powerDown => Sys2Proof.Machine.execPowerDown s
  | .perstAssert => Sys2Proof.Machine.execPerstAssert s
  | .perstDeassert straps => Sys2Proof.Machine.execPerstDeassert straps s
  | .hotReset cause => Sys2Proof.Machine.execHotReset cause s
  | .boot r => Sys2Proof.Machine.execBoot r s
  | .loadHost image ms avs cut => Sys2Proof.Machine.execLoadHost image ms avs cut s
  | .loadSlot ms avs cut => Sys2Proof.Machine.execLoadSlot ms avs cut s
  | .writeSlot image ms => Sys2Proof.Machine.execWriteSlot image ms s
  | .sealSlot ms cut => Sys2Proof.Machine.execSealSlot ms cut s
  | .eraseSlot ms => Sys2Proof.Machine.execEraseSlot ms s
  | .fuseArm v => Sys2Proof.Machine.execFuseArm v s
  | .reservedOpcode n t w => Sys2Proof.Machine.execReservedOpcode n t w s
  | .sel n t f => Sys2Proof.Machine.execSel n t f s
  | .lui n t f => Sys2Proof.Machine.execLui n t f s
  | .addi n t f => Sys2Proof.Machine.execAddi n t f s
  | .andi n t f => Sys2Proof.Machine.execAndi n t f s
  | .ori n t f => Sys2Proof.Machine.execOri n t f s
  | .xori n t f => Sys2Proof.Machine.execXori n t f s
  | .cmpeqi n t f => Sys2Proof.Machine.execCmpeqi n t f s
  | .cmpnei n t f => Sys2Proof.Machine.execCmpnei n t f s
  | .cmplti n t f => Sys2Proof.Machine.execCmplti n t f s
  | .cmpltui n t f => Sys2Proof.Machine.execCmpltui n t f s
  | .shli n t f => Sys2Proof.Machine.execShli n t f s
  | .shri n t f => Sys2Proof.Machine.execShri n t f s
  | .sari n t f => Sys2Proof.Machine.execSari n t f s
  | .muli n t f => Sys2Proof.Machine.execMuli n t f s
  | .lb n t f => Sys2Proof.Machine.execLb n t f s
  | .lbu n t f => Sys2Proof.Machine.execLbu n t f s
  | .lh n t f => Sys2Proof.Machine.execLh n t f s
  | .lhu n t f => Sys2Proof.Machine.execLhu n t f s
  | .lw n t f => Sys2Proof.Machine.execLw n t f s
  | .ld n t f => Sys2Proof.Machine.execLd n t f s
  | .aadd n t f => Sys2Proof.Machine.execAadd n t f s
  | .aswp n t f => Sys2Proof.Machine.execAswp n t f s
  | .sb n t f => Sys2Proof.Machine.execSb n t f s
  | .sh n t f => Sys2Proof.Machine.execSh n t f s
  | .sw n t f => Sys2Proof.Machine.execSw n t f s
  | .sd n t f => Sys2Proof.Machine.execSd n t f s
  | .bz n t f => Sys2Proof.Machine.execBz n t f s
  | .bnz n t f => Sys2Proof.Machine.execBnz n t f s
  | .dbnz n t f => Sys2Proof.Machine.execDbnz n t f s
  | .j n t f => Sys2Proof.Machine.execJ n t f s
  | .call n t f => Sys2Proof.Machine.execCall n t f s
  | .jalr n t f => Sys2Proof.Machine.execJalr n t f s
  | .add n t f => Sys2Proof.Machine.execAdd n t f s
  | .sub n t f => Sys2Proof.Machine.execSub n t f s
  | .and n t f => Sys2Proof.Machine.execAnd n t f s
  | .or n t f => Sys2Proof.Machine.execOr n t f s
  | .xor n t f => Sys2Proof.Machine.execXor n t f s
  | .andn n t f => Sys2Proof.Machine.execAndn n t f s
  | .shl n t f => Sys2Proof.Machine.execShl n t f s
  | .shr n t f => Sys2Proof.Machine.execShr n t f s
  | .sar n t f => Sys2Proof.Machine.execSar n t f s
  | .rol n t f => Sys2Proof.Machine.execRol n t f s
  | .ror n t f => Sys2Proof.Machine.execRor n t f s
  | .cmpeq n t f => Sys2Proof.Machine.execCmpeq n t f s
  | .cmpne n t f => Sys2Proof.Machine.execCmpne n t f s
  | .cmplt n t f => Sys2Proof.Machine.execCmplt n t f s
  | .cmpltu n t f => Sys2Proof.Machine.execCmpltu n t f s
  | .cmple n t f => Sys2Proof.Machine.execCmple n t f s
  | .cmpleu n t f => Sys2Proof.Machine.execCmpleu n t f s
  | .min n t f => Sys2Proof.Machine.execMin n t f s
  | .max n t f => Sys2Proof.Machine.execMax n t f s
  | .minu n t f => Sys2Proof.Machine.execMinu n t f s
  | .maxu n t f => Sys2Proof.Machine.execMaxu n t f s
  | .mul n t f => Sys2Proof.Machine.execMul n t f s
  | .mulh n t f => Sys2Proof.Machine.execMulh n t f s
  | .mulhu n t f => Sys2Proof.Machine.execMulhu n t f s
  | .divs n t f => Sys2Proof.Machine.execDivs n t f s
  | .divu n t f => Sys2Proof.Machine.execDivu n t f s
  | .carry n t f => Sys2Proof.Machine.execCarry n t f s
  | .borrow n t f => Sys2Proof.Machine.execBorrow n t f s
  | .adds n t f => Sys2Proof.Machine.execAdds n t f s
  | .subs n t f => Sys2Proof.Machine.execSubs n t f s
  | .neg n t f => Sys2Proof.Machine.execNeg n t f s
  | .not n t f => Sys2Proof.Machine.execNot n t f s
  | .abs n t f => Sys2Proof.Machine.execAbs n t f s
  | .clz n t f => Sys2Proof.Machine.execClz n t f s
  | .ctz n t f => Sys2Proof.Machine.execCtz n t f s
  | .popc n t f => Sys2Proof.Machine.execPopc n t f s
  | .par n t f => Sys2Proof.Machine.execPar n t f s
  | .brev n t f => Sys2Proof.Machine.execBrev n t f s
  | .brev8 n t f => Sys2Proof.Machine.execBrev8 n t f s
  | .bswap n t f => Sys2Proof.Machine.execBswap n t f s
  | .sextb n t f => Sys2Proof.Machine.execSextb n t f s
  | .sexth n t f => Sys2Proof.Machine.execSexth n t f s
  | .zexth n t f => Sys2Proof.Machine.execZexth n t f s
  | .crc32b n t f => Sys2Proof.Machine.execCrc32b n t f s
  | .crc32w n t f => Sys2Proof.Machine.execCrc32w n t f s
  | .crc16b n t f => Sys2Proof.Machine.execCrc16b n t f s
  | .nop n t f => Sys2Proof.Machine.execNop n t f s
  | .wait n t f => Sys2Proof.Machine.execWait n t f s
  | .iret n t f => Sys2Proof.Machine.execIret n t f s
  | .trap n t f => Sys2Proof.Machine.execTrap n t f s
  | .mfsr n t f => Sys2Proof.Machine.execMfsr n t f s
  | .mtsr n t f => Sys2Proof.Machine.execMtsr n t f s
  | .stop n t f => Sys2Proof.Machine.execStop n t f s
  | .pair n t f => Sys2Proof.Machine.execPair n t f s
  | .threadRunWrite p n v => Sys2Proof.Machine.execThreadRunWrite p n v s
  | .instTRegisterWrite p n t off v => Sys2Proof.Machine.execInstTRegisterWrite p n t off v s
  | .interruptEntry n t => Sys2Proof.Machine.execInterruptEntry n t s
  | .waitWake n t => Sys2Proof.Machine.execWaitWake n t s
  | .icuClaim n t => Sys2Proof.Machine.execIcuClaim n t s
  | .icuEoi p n v => Sys2Proof.Machine.execIcuEoi p n v s
  | .icuSrcCfgWrite p n j v => Sys2Proof.Machine.execIcuSrcCfgWrite p n j v s
  | .timCtrlWrite p n j v => Sys2Proof.Machine.execTimCtrlWrite p n j v s
  | .timerTick n j => Sys2Proof.Machine.execTimerTick n j s
  | .timCaptRead p n j => Sys2Proof.Machine.execTimCaptRead p n j s
  | .beamTimerFire n j => Sys2Proof.Machine.execBeamTimerFire n j s
  | .eventPulse n j => Sys2Proof.Machine.execEventPulse n j s
  | .evtSw p n v => Sys2Proof.Machine.execEvtSw p n v s
  | .threeFlopPulseAction n j => Sys2Proof.Machine.execThreeFlopPulseAction n j s
  | .cdcInstModeWrite n v => Sys2Proof.Machine.execCdcInstModeWrite n v s
  | .vidVcLoRead p n => Sys2Proof.Machine.execVidVcLoRead p n s
  | .vidTimingWrite p n v => Sys2Proof.Machine.execVidTimingWrite p n v s
  | .hostWriteLand n => Sys2Proof.Machine.execHostWriteLand n s
  | .frameRelease n => Sys2Proof.Machine.execFrameRelease n s
  | .pacingDeadlineExpire n => Sys2Proof.Machine.execPacingDeadlineExpire n s
  | .vidPaceReanchor n v => Sys2Proof.Machine.execVidPaceReanchor n v s
  | .lineStatePoint n => Sys2Proof.Machine.execLineStatePoint n s
  | .frameLatch n => Sys2Proof.Machine.execFrameLatch n s
  | .cmpCommit p n v => Sys2Proof.Machine.execCmpCommit p n v s
  | .lineDispatch n k => Sys2Proof.Machine.execLineDispatch n k s
  | .lineRenderDone k => Sys2Proof.Machine.execLineRenderDone k s
  | .journalRetire n => Sys2Proof.Machine.execJournalRetire n s
  | .engineBeatLand n => Sys2Proof.Machine.execEngineBeatLand n s
  | .rendererRotation k pass => Sys2Proof.Machine.execRendererRotation k s pass
  | .rendererTestDone k pass => Sys2Proof.Machine.execRendererTestDone k pass s
  | .blitEngineTest k pass => Sys2Proof.Machine.execBlitEngineTest k pass s
  | .coreTest k pass => Sys2Proof.Machine.execCoreTest k pass s
  | .bltSubmit p n v => Sys2Proof.Machine.execBltSubmit p n v s
  | .blitJobCreditWait n => Sys2Proof.Machine.execBlitJobCreditWait n s
  | .blitJobTake k => Sys2Proof.Machine.execBlitJobTake k s
  | .blitJobStart n => Sys2Proof.Machine.execBlitJobStart n s
  | .blitBeat n => Sys2Proof.Machine.execBlitBeat n s
  | .blitSetAside k => Sys2Proof.Machine.execBlitSetAside k s
  | .blitResume k => Sys2Proof.Machine.execBlitResume k s
  | .dmaStart p n j v => Sys2Proof.Machine.execDmaStart p n j v s
  | .dmaCheck n j => Sys2Proof.Machine.execDmaCheck n j s
  | .dmaBeat n => Sys2Proof.Machine.execDmaBeat n s
  | .audioSample n => Sys2Proof.Machine.execAudioSample n s
  | .audRestart p n j v => Sys2Proof.Machine.execAudRestart p n j v s
  | .audSampleLoRead p n => Sys2Proof.Machine.execAudSampleLoRead p n s
  | .streamSlotClaim n => Sys2Proof.Machine.execStreamSlotClaim n s
  | .compressRow k => Sys2Proof.Machine.execCompressRow k s
  | .packetComplete n => Sys2Proof.Machine.execPacketComplete n s
  | .packetMove n => Sys2Proof.Machine.execPacketMove n s
  | .whistleWatchdogExpire n => Sys2Proof.Machine.execWhistleWatchdogExpire n s
  | .bypassBlockMove n => Sys2Proof.Machine.execBypassBlockMove n s
  | .monitorFrameStart k => Sys2Proof.Machine.execMonitorFrameStart k s
  | .monitorSlotRelease k => Sys2Proof.Machine.execMonitorSlotRelease k s
  | .dpLinkTrain k lanes rate => Sys2Proof.Machine.execDpLinkTrain k lanes rate s
  | .hpdEvent k e => Sys2Proof.Machine.execHpdEvent k e s
  | .cmpBellCommit n v => Sys2Proof.Machine.execCmpBellCommit n v s
  | .bellBankSwitch n => Sys2Proof.Machine.execBellBankSwitch n s
  | .bellSurfaceWrite off width v => Sys2Proof.Machine.execBellSurfaceWrite off width v s
  | .checkpoint n => Sys2Proof.Machine.execCheckpoint n s
  | .undoCopy n region block => Sys2Proof.Machine.execUndoCopy n region block s
  | .auditRun n slot again r => Sys2Proof.Machine.execAuditRun n slot again r s
  | .hold n => Sys2Proof.Machine.execHold n s
  | .holdNow n => Sys2Proof.Machine.execHoldNow n s
  | .play n shelf => Sys2Proof.Machine.execPlay n shelf s
  | .bench n shelf => Sys2Proof.Machine.execBench n shelf s
  | .park n shelf => Sys2Proof.Machine.execPark n shelf s
  | .shelve n => Sys2Proof.Machine.execShelve n s
  | .rewind n => Sys2Proof.Machine.execRewind n s
  | .instReset n => Sys2Proof.Machine.execInstReset n s
  | .adopt n => Sys2Proof.Machine.execAdopt n s
  | .rungCommandDequeue n => Sys2Proof.Machine.execRungCommandDequeue n s
  | .cmdEntry n entry => Sys2Proof.Machine.execCmdEntry n entry s
  | .inputArrive n entry => Sys2Proof.Machine.execInputArrive n entry s
  | .extWrite => Sys2Proof.Machine.execExtWrite s
  | .extRead => Sys2Proof.Machine.execExtRead s
  | .extFlush => Sys2Proof.Machine.execExtFlush s
  | .extDrop => Sys2Proof.Machine.execExtDrop s
  | .extFetch leaves => Sys2Proof.Machine.execExtFetch leaves s
  | .extSpanWrite p n count v => Sys2Proof.Machine.execExtSpanWrite p n count v s
  | .leafMove extent leaf content => Sys2Proof.Machine.execLeafMove extent leaf content s
  | .moverCopy r desc data => Sys2Proof.Machine.execMoverCopy r desc data s
  | .moverFill r desc => Sys2Proof.Machine.execMoverFill r desc s
  | .moverDescriptorComplete r => Sys2Proof.Machine.execMoverDescriptorComplete r s
  | .hstMvTail r v => Sys2Proof.Machine.execHstMvTail r v s
  | .moverRingDisable r => Sys2Proof.Machine.execMoverRingDisable r s
  | .moverRingResume r => Sys2Proof.Machine.execMoverRingResume r s
  | .hstVfRingEnable p n r v => Sys2Proof.Machine.execHstVfRingEnable p n r v s
  | .hstVfDb p n r v => Sys2Proof.Machine.execHstVfDb p n r v s
  | .irqDelayExpire n => Sys2Proof.Machine.execIrqDelayExpire n s
  | .ringReadFail n r => Sys2Proof.Machine.execRingReadFail n r s
  | .flr n => Sys2Proof.Machine.execFlr n s
  | .vfEnableClear count => Sys2Proof.Machine.execVfEnableClear count s
  | .busMasterEnableChange fn on => Sys2Proof.Machine.execBusMasterEnableChange fn on s
  | .unsupportedRequest p a => Sys2Proof.Machine.execUnsupportedRequest p a s
  | .poisonedWrite p a => Sys2Proof.Machine.execPoisonedWrite p a s
  | .linkTrain lanes rate flit => Sys2Proof.Machine.execLinkTrain lanes rate flit s
  | .channelWatchdogExpire k => Sys2Proof.Machine.execChannelWatchdogExpire k s
  | .powerRun => Sys2Proof.Machine.execPowerRun s
  | .retain => Sys2Proof.Machine.execRetain s
  | .doze => Sys2Proof.Machine.execDoze s
  | .idleEnter => Sys2Proof.Machine.execIdleEnter s
  | .idleExit => Sys2Proof.Machine.execIdleExit s
  | .rampStart => Sys2Proof.Machine.execRampStart s
  | .rampEnd d => Sys2Proof.Machine.execRampEnd d s
  | .drainComplete d => Sys2Proof.Machine.execDrainComplete d s
  | .drainForced d => Sys2Proof.Machine.execDrainForced d s
  | .linkSleepEnter => Sys2Proof.Machine.execLinkSleepEnter s
  | .linkSleepExit => Sys2Proof.Machine.execLinkSleepExit s
  | .scrubStep upsets => Sys2Proof.Machine.execScrubStep s upsets
  | .poolSelfTest g pass => Sys2Proof.Machine.execPoolSelfTest g pass s
  | .hbmPatrolScrub => Sys2Proof.Machine.execHbmPatrolScrub s
  | .injectCe => Sys2Proof.Machine.execInjectCe s
  | .injectUe => Sys2Proof.Machine.execInjectUe s
  | .lockstepMismatch k => Sys2Proof.Machine.execLockstepMismatch k s
  | .mgtHeartbeat => Sys2Proof.Machine.execMgtHeartbeat s
  | .mgtWatchdog => Sys2Proof.Machine.execMgtWatchdog s
  | .clockMonitorWindow c count lost => Sys2Proof.Machine.execClockMonitorWindow c count lost s
  | .voltageSample rail uv => Sys2Proof.Machine.execVoltageSample rail uv s
  | .tempCrossing level => Sys2Proof.Machine.execTempCrossing level s
  | .thermtrip => Sys2Proof.Machine.execThermtrip s
  | .tamperAssert j => Sys2Proof.Machine.execTamperAssert j s
  | .tamperWipeDone => Sys2Proof.Machine.execTamperWipeDone s
  | .hbmLinkLoss => Sys2Proof.Machine.execHbmLinkLoss s
  | .safForce v => Sys2Proof.Machine.execSafForce v s
  | .safTestReq v => Sys2Proof.Machine.execSafTestReq v s
  | .testStart pass => Sys2Proof.Machine.execTestStart s pass
  | .testDefer => Sys2Proof.Machine.execTestDefer s
  | .testDone pass => Sys2Proof.Machine.execTestDone pass s
  | .gpioCfgWrite a p v => Sys2Proof.Machine.execGpioCfgWrite a p v s
  | .gpioSwitchSettle p => Sys2Proof.Machine.execGpioSwitchSettle p s
  | .gpioTgl a w v => Sys2Proof.Machine.execGpioTgl a w v s
  | .gpioLockKey a v => Sys2Proof.Machine.execGpioLockKey a v s
  | .gpioLockedWrite a w v => Sys2Proof.Machine.execGpioLockedWrite a w v s
  | .gpioEdge p level closed => Sys2Proof.Machine.execGpioEdge p level closed s
  | .fwInfo => Sys2Proof.Machine.execFwInfo s
  | .flashWrite copy again readBack => Sys2Proof.Machine.execFlashWrite copy again readBack s
  | .flashErase => Sys2Proof.Machine.execFlashErase s
  | .jtagBypass => Sys2Proof.Machine.execJtagBypass s
  | .idcode => Sys2Proof.Machine.execIdcode s
  | .samplePreload v => Sys2Proof.Machine.execSamplePreload v s
  | .extest v => Sys2Proof.Machine.execExtest v s
  | .clampInstruction => Sys2Proof.Machine.execClampInstruction s
  | .highz => Sys2Proof.Machine.execHighz s
  | .dpLinkLoss k => Sys2Proof.Machine.execDpLinkLoss k s
  | .i2sBlockDrain k => Sys2Proof.Machine.execI2sBlockDrain k s
  | .adaptiveVoltageScaling mv => Sys2Proof.Machine.execAdaptiveVoltageScaling mv s
  | .coreParityFault c p => Sys2Proof.Machine.execCoreParityFault c p s
  | .memorySpaceEnableChange fn on => Sys2Proof.Machine.execMemorySpaceEnableChange fn on s

end Sys2Proof.Machine
end

