-- ==== Sys2Proof/Safety.lean ====
section
/-! DEFINITION. What counts as a safe state, in the terms that the claims use: the canonical form of the memories, fault causes
handled within the command that detects them (R530, R533), and a chip interrupt controller that follows its level sources
(R537, R538). -/
namespace Sys2Proof.Machine

/-- The bytes of Pool and HBM, and the register tables, in their canonical form. -/
def State.memWf (s : State) : Bool :=
  Map.wf zeroByte s.pool && Map.wf zeroByte s.hbm && Map.wf pfReset s.regs && Map.wf (fun _ => ({} : Inst)) s.insts

/-- No detected cause of a fault waits for its reaction (R530, R533). -/
def State.noCause (s : State) : Prop := s.safety.found = [] ∧ ∀ n, (s.inst n).found = []

/-- The chip ICU has seen the level sources as they are (R537, R538). -/
def State.levelsAgree (s : State) : Prop := s.safety.levels = s.chipLevels

/-- What every command leaves. -/
def State.safe (s : State) : Prop := s.noCause ∧ s.levelsAgree

/-- The outcome is a next state of which `p` holds. -/
def NextWith (o : Result) (p : State → Prop) : Prop := ∃ t, o = .next t ∧ p t

/-- No word of a memory is uncorrectable (R406, R407). -/
def State.clean (s : State) : Prop := ∀ m, (s.badOf m).2 = []

/-- Thread b is thread a but for the returns from interrupts that may have completed meanwhile, which restore IN_TRAP and the level
from the stack (R355). -/
def Thread.Returned (a b : Thread) : Prop := b = { a with stack := b.stack, inTrap := b.inTrap, level := b.level }

/-- No return of thread t from an interrupt is under way (R355). -/
def Core.noReturn (c : Core) (t : Nat) : Prop := ∀ e ∈ c.micro, ∀ d, e.2 ≠ .endService t d

/-- Thread t of instance n has become x; the other threads and the other instances are as in s1. Returns from interrupts that were under
way may have completed. -/
def ThreadLeft (n t : Nat) (s1 : State) (x : Thread) (u : State) : Prop :=
  (∀ y, (if y = t then x else (s1.core n).thread y).Returned ((u.core n).thread y))
    ∧ (∀ y, (s1.core n).noReturn y → (u.core n).thread y = if y = t then x else (s1.core n).thread y)
    ∧ ∀ m, m ≠ n → u.inst m = s1.inst m

/-- Thread t of instance n begins word w at its stamp: it is its turn, it does not wait, no interrupt is to be entered, and the
fetch gives w, leaving the state s1, in which the thread still runs at that stamp (R80, R325, R353); no cause was detected, and no
memory holds an uncorrectable word that an effect could meet. -/
structure Begins (s : State) (n t stamp w : Nat) (s1 : State) : Prop where
  turn    : ∃ k, (s.inst n).turnOf (.thread t) = some k ∧ keyStamp k = stamp
  awake   : ((s.core n).thread t).waiting = false
  noIrq   : (s.core n).eligible t = 0
  fetched : s.fetch n t stamp = .ok w s1
  runs    : ((s1.core n).thread t).run = true
  place   : ((s1.core n).thread t).pos = stamp
  quiet   : s1.noCause
  clean   : s1.clean

/-- What a word leaves that completes after its fetch left s1: thread t has PC `pc`, stands `cost` later, and its general
registers other than g0 hold `g`; every other field of the thread, the other threads and the other instances are as before
(`ThreadLeft`). -/
def WordDone (n t : Nat) (s1 : State) (stamp cost : Nat) (pc : Word) (g : Nat → Word) (u : State) : Prop :=
  (∃ m, ThreadLeft n t s1 { (s1.core n).thread t with g := m, pc := pc, pos := stamp + cost } u)
    ∧ ∀ r, u.gr n t r = if r = 0 then 0 else g r

/-- One register replaced in a table of registers. -/
def putReg (g : Nat → Word) (k : Nat) (v : Word) : Nat → Word := fun r => if r = k then v else g r

end Sys2Proof.Machine
end

