-- ==== Sys2Proof/Terms.lean ====
section
/-! DEFINITION. The words that the statements are written in: the instruction tables of the Cymal set as the manual gives
them (R304 to R320), and what a word, a trap or a register write leaves. -/
namespace Sys2Proof.Machine

/-- A long word: OP, gd, ga, and the fifteen bits below them (R304, R305). -/
def longWord (op gd ga low : Nat) : Nat := op * 2 ^ 25 + gd * 2 ^ 20 + ga * 2 ^ 15 + low

/-- A row of an opcode table for words that compute one register from registers: the command, OP or FN, vc, and the operation. -/
structure OpRow (F : Type) (α : Type) where
  cmd  : Nat → Nat → F → Instr
  code : Nat
  cost : Nat
  op   : α

/-- The ALU functions of two operands, but for the CRC steps and the divisions (R315, R318, R319). -/
def aluTwoRows : List (OpRow FmtR (Word → Word → Word)) :=
  [⟨.add, 0x00, 1, fun a b => a + b⟩, ⟨.sub, 0x01, 1, fun a b => a - b⟩, ⟨.and, 0x02, 1, fun a b => a &&& b⟩,
   ⟨.or, 0x03, 1, fun a b => a ||| b⟩, ⟨.xor, 0x04, 1, fun a b => a ^^^ b⟩, ⟨.andn, 0x05, 1, fun a b => a &&& ~~~b⟩]
  ++ [⟨.shl, 0x06, 1, fun a b => if 32 ≤ b.toNat % 256 then 0 else a <<< (b.toNat % 256)⟩,
   ⟨.shr, 0x07, 1, fun a b => if 32 ≤ b.toNat % 256 then 0 else a >>> (b.toNat % 256)⟩,
   ⟨.sar, 0x08, 1, fun a b => if 32 ≤ b.toNat % 256 then (if a.msb then 0xFFFFFFFF else 0) else a.sshiftRight (b.toNat % 256)⟩,
   ⟨.rol, 0x09, 1, fun a b => (a <<< (b.toNat % 32)) ||| (a >>> (32 - b.toNat % 32))⟩,
   ⟨.ror, 0x0A, 1, fun a b => (a >>> (b.toNat % 32)) ||| (a <<< (32 - b.toNat % 32))⟩]
  ++ [⟨.cmpeq, 0x0B, 1, fun a b => if a.toNat = b.toNat then 1 else 0⟩, ⟨.cmpne, 0x0C, 1, fun a b => if a.toNat ≠ b.toNat then 1 else 0⟩,
   ⟨.cmplt, 0x0D, 1, fun a b => if a.toInt < b.toInt then 1 else 0⟩, ⟨.cmpltu, 0x0E, 1, fun a b => if a.toNat < b.toNat then 1 else 0⟩,
   ⟨.cmple, 0x0F, 1, fun a b => if a.toInt ≤ b.toInt then 1 else 0⟩, ⟨.cmpleu, 0x10, 1, fun a b => if a.toNat ≤ b.toNat then 1 else 0⟩]
  ++ [⟨.min, 0x11, 1, fun a b => if a.toInt ≤ b.toInt then a else b⟩, ⟨.max, 0x12, 1, fun a b => if a.toInt ≤ b.toInt then b else a⟩,
   ⟨.minu, 0x13, 1, fun a b => if a.toNat ≤ b.toNat then a else b⟩, ⟨.maxu, 0x14, 1, fun a b => if a.toNat ≤ b.toNat then b else a⟩]
  ++ [⟨.mul, 0x15, 2, fun a b => BitVec.ofNat 32 (a.toNat * b.toNat)⟩,
   ⟨.mulh, 0x16, 3, fun a b => BitVec.ofInt 32 ((a.toInt * b.toInt) / 2 ^ 32)⟩,
   ⟨.mulhu, 0x17, 3, fun a b => BitVec.ofNat 32 (a.toNat * b.toNat / 2 ^ 32)⟩,
   ⟨.carry, 0x1A, 1, fun a b => if 2 ^ 32 ≤ a.toNat + b.toNat then 1 else 0⟩,
   ⟨.borrow, 0x1B, 1, fun a b => if a.toNat < b.toNat then 1 else 0⟩]
  ++ [⟨.adds, 0x1C, 1, fun a b => BitVec.ofInt 32 (max (-2147483648) (min 2147483647 (a.toInt + b.toInt)))⟩,
   ⟨.subs, 0x1D, 1, fun a b => BitVec.ofInt 32 (max (-2147483648) (min 2147483647 (a.toInt - b.toInt)))⟩]

/-- One step of a reflected CRC over a bit (R320). -/
def crcBit (poly : Word) (c : Word) : Word := if c.getLsbD 0 then (c >>> 1) ^^^ poly else c >>> 1
/-- A function applied a number of times. -/
def times {α : Type} (f : α → α) : Nat → α → α
  | 0, x => x
  | n + 1, x => times f n (f x)
/-- CRC32B of R320. -/
def crc32Byte (a : Word) (b : Nat) : Word := times (crcBit 0xEDB88320) 8 (a ^^^ BitVec.ofNat 32 (b % 256))
/-- One step of CRC16B over a bit (R320). -/
def crc16Bit (c : Word) : Word :=
  if c.getLsbD 15 then ((c <<< 1) &&& 0xFFFF) ^^^ 0x1021 else (c <<< 1) &&& 0xFFFF

/-- The CRC steps (R315, R320). -/
def aluCrcRows : List (OpRow FmtR (Word → Word → Word)) :=
  [⟨.crc32b, 0x30, 1, fun a b => crc32Byte a b.toNat⟩,
   ⟨.crc32w, 0x31, 2, fun a b =>
      crc32Byte (crc32Byte (crc32Byte (crc32Byte a b.toNat) (b.toNat / 256)) (b.toNat / 65536)) (b.toNat / 16777216)⟩,
   ⟨.crc16b, 0x32, 1, fun a b => times crc16Bit 8 ((a &&& 0xFFFF) ^^^ BitVec.ofNat 32 (b.toNat % 256 * 256))⟩]

/-- The ALU functions of one operand that are arithmetic (R315, R319). -/
def aluOneRows : List (OpRow FmtR (Word → Word)) :=
  [⟨.neg, 0x20, 1, fun a => 0 - a⟩, ⟨.not, 0x21, 1, fun a => ~~~a⟩, ⟨.abs, 0x22, 1, fun a => if 0 ≤ a.toInt then a else 0 - a⟩,
   ⟨.sextb, 0x2A, 1, fun a => (a.setWidth 8).signExtend 32⟩, ⟨.sexth, 0x2B, 1, fun a => (a.setWidth 16).signExtend 32⟩,
   ⟨.zexth, 0x2C, 1, fun a => (a.setWidth 16).setWidth 32⟩]

/-- The number of leading positions of a list at which a test fails. -/
def leading (p : Nat → Bool) (l : List Nat) : Nat := (l.takeWhile fun i => !p i).length

/-- The ALU functions that count and move bits (R315, R319). -/
def aluBitRows : List (OpRow FmtR (Word → Word)) :=
  [⟨.clz, 0x23, 1, fun a => BitVec.ofNat 32 (leading (fun i => a.getLsbD (31 - i)) (List.range 32))⟩,
   ⟨.ctz, 0x24, 1, fun a => BitVec.ofNat 32 (leading a.getLsbD (List.range 32))⟩,
   ⟨.popc, 0x25, 1, fun a => BitVec.ofNat 32 ((List.range 32).filter a.getLsbD).length⟩,
   ⟨.par, 0x26, 1, fun a => BitVec.ofNat 32 (((List.range 32).filter a.getLsbD).length % 2)⟩,
   ⟨.brev, 0x27, 1, fun a => a.reverse⟩,
   ⟨.brev8, 0x28, 1, fun a => (a.extractLsb' 24 8).reverse ++ (a.extractLsb' 16 8).reverse ++ (a.extractLsb' 8 8).reverse
      ++ (a.extractLsb' 0 8).reverse⟩,
   ⟨.bswap, 0x29, 1, fun a => a.extractLsb' 0 8 ++ a.extractLsb' 8 8 ++ a.extractLsb' 16 8 ++ a.extractLsb' 24 8⟩]

/-- The immediate words but the shifts: the operation is given ga and imm15 (R314). -/
def immRows : List (OpRow FmtI (Word → BitVec 15 → Word)) :=
  [⟨.addi, 0x04, 1, fun a i => a + i.signExtend 32⟩, ⟨.andi, 0x05, 1, fun a i => a &&& i.setWidth 32⟩,
   ⟨.ori, 0x06, 1, fun a i => a ||| i.setWidth 32⟩, ⟨.xori, 0x07, 1, fun a i => a ^^^ i.setWidth 32⟩,
   ⟨.cmpeqi, 0x08, 1, fun a i => if a = i.signExtend 32 then 1 else 0⟩,
   ⟨.cmpnei, 0x09, 1, fun a i => if a ≠ i.signExtend 32 then 1 else 0⟩]
  ++ [⟨.cmplti, 0x0A, 1, fun a i => if a.toInt < i.toInt then 1 else 0⟩,
   ⟨.cmpltui, 0x0B, 1, fun a i => if a.toNat < (i.signExtend 32).toNat then 1 else 0⟩,
   ⟨.muli, 0x0F, 2, fun a i => BitVec.ofInt 32 (a.toInt * i.toInt)⟩]

/-- The shifts by an immediate count (R314, R319). -/
def shiftRows : List (OpRow FmtI (Word → Nat → Word)) :=
  [⟨.shli, 0x0C, 1, fun a c => if 32 ≤ c then 0 else a <<< c⟩, ⟨.shri, 0x0D, 1, fun a c => if 32 ≤ c then 0 else a >>> c⟩,
   ⟨.sari, 0x0E, 1, fun a c => if 32 ≤ c then (if a.msb then 0xFFFFFFFF else 0) else a.sshiftRight c⟩]

/-- The loads that write one register: the command, OP, bytes, and the result from the number loaded (R314, R321). -/
def loadRows : List (OpRow FmtM (Nat × (Nat → Word))) :=
  [⟨.lb, 0x10, 2, (1, fun v => (BitVec.ofNat 8 v).signExtend 32)⟩, ⟨.lbu, 0x11, 2, (1, fun v => BitVec.ofNat 32 v)⟩,
   ⟨.lh, 0x12, 2, (2, fun v => (BitVec.ofNat 16 v).signExtend 32)⟩, ⟨.lhu, 0x13, 2, (2, fun v => BitVec.ofNat 32 v)⟩,
   ⟨.lw, 0x14, 2, (4, fun v => BitVec.ofNat 32 v)⟩]

/-- The stores of one register: the command, OP and bytes (R314, R321). -/
def storeRows : List (OpRow FmtM Nat) := [⟨.sb, 0x18, 1, 1⟩, ⟨.sh, 0x19, 1, 2⟩, ⟨.sw, 0x1A, 1, 4⟩]

/-- The atomics: the new word from the old one and gd (R314, R324). -/
def atomicRows : List (OpRow FmtM (Word → Word → Word)) := [⟨.aadd, 0x16, 3, fun t d => t + d⟩, ⟨.aswp, 0x17, 3, fun _ d => d⟩]

/-- The offset that a long memory word names (R311): ga plus imm12, signed, modulo 2^32. -/
def offsetOf (ga : Word) (imm : BitVec 12) : Nat := (ga + imm.signExtend 32).toNat

/-- Signed division as R319 gives it: quotient and remainder. -/
def signedDivision (a b : Word) : Word × Word :=
  if b.toNat = 0 then (0xFFFFFFFF, a)
  else (BitVec.ofInt 32 (a.toInt.tdiv b.toInt), BitVec.ofInt 32 (a.toInt.tmod b.toInt))
/-- Unsigned division as R319 gives it. -/
def unsignedDivision (a b : Word) : Word × Word :=
  if b.toNat = 0 then (0xFFFFFFFF, a) else (BitVec.ofNat 32 (a.toNat / b.toNat), BitVec.ofNat 32 (a.toNat % b.toNat))

/-- The divisions (R315, R319). -/
def divisionRows : List (OpRow FmtR (Word → Word → Word × Word)) :=
  [⟨.divs, 0x18, 12, signedDivision⟩, ⟨.divu, 0x19, 12, unsignedDivision⟩]

/-- The value of a general register as an operand: g0 reads 0 (R301). -/
def readReg (g : Nat → Word) (k : Nat) : Word := if k = 0 then 0 else g k

/-- A row of the table of short instructions: SOP, vc, and the result from gd, gs and imm5. -/
structure ShortRow where
  sop  : Nat
  cost : Nat
  op   : Word → Word → BitVec 5 → Word

/-- The short instructions that neither load nor store: R317, R319. -/
def shortRows : List ShortRow :=
  [⟨0x01, 1, fun _ s _ => s⟩, ⟨0x02, 1, fun d s _ => d + s⟩, ⟨0x03, 1, fun d s _ => d - s⟩, ⟨0x04, 1, fun d s _ => d &&& s⟩,
   ⟨0x05, 1, fun d s _ => d ||| s⟩, ⟨0x06, 1, fun d s _ => d ^^^ s⟩]
  ++ [⟨0x07, 1, fun d s _ => if 32 ≤ s.toNat % 256 then 0 else d <<< (s.toNat % 256)⟩,
   ⟨0x08, 1, fun d s _ => if 32 ≤ s.toNat % 256 then 0 else d >>> (s.toNat % 256)⟩,
   ⟨0x09, 1, fun d s _ => if 32 ≤ s.toNat % 256 then (if d.msb then 0xFFFFFFFF else 0) else d.sshiftRight (s.toNat % 256)⟩,
   ⟨0x0A, 1, fun d s _ => if d.toNat = s.toNat then 1 else 0⟩, ⟨0x0B, 1, fun d s _ => if d.toNat ≠ s.toNat then 1 else 0⟩,
   ⟨0x0C, 1, fun d s _ => if d.toInt < s.toInt then 1 else 0⟩, ⟨0x0D, 1, fun d s _ => if d.toNat < s.toNat then 1 else 0⟩]
  ++ [⟨0x0E, 1, fun _ s _ => 0 - s⟩, ⟨0x0F, 1, fun _ s _ => ~~~s⟩, ⟨0x10, 2, fun d s _ => BitVec.ofNat 32 (d.toNat * s.toNat)⟩,
   ⟨0x11, 1, fun _ s _ => BitVec.ofNat 32 ((List.range 32).filter s.getLsbD).length⟩,
   ⟨0x12, 1, fun _ s _ => BitVec.ofNat 32 (((List.range 32).filter s.getLsbD).length % 2)⟩]
  ++ [⟨0x14, 1, fun _ _ i => i.signExtend 32⟩, ⟨0x15, 1, fun d _ i => d + i.signExtend 32⟩,
   ⟨0x16, 1, fun d _ i => d <<< i.toNat⟩, ⟨0x17, 1, fun d _ i => d >>> i.toNat⟩, ⟨0x18, 1, fun d _ i => d.sshiftRight i.toNat⟩,
   ⟨0x19, 1, fun d _ i => if d.getLsbD i.toNat then 1 else 0⟩]

/-- A short instruction: SOP, gd, and gs or imm5 (R306). -/
def shortOf (sop gd gs : Nat) : Nat := sop * 1024 + gd * 32 + gs
/-- A pair word of two short instructions (R304, R306). -/
def pairWord (a b : Nat) : Nat := 2 ^ 31 + a * 65536 + b

/-- The registers after the short instruction of a row of `shortRows` with fields gd and gs. -/
def shortDone (e : ShortRow) (gd gs : Nat) (g : Nat → Word) : Nat → Word :=
  putReg g gd (e.op (readReg g gd) (readReg g gs) (BitVec.ofNat 5 gs))

/-- What the trapping thread becomes (R331 to R333): trap entry at vector `vec`, or the stop of a double trap. `charge` is the
vc charged before entry, `half` HALF and `resume` the resume point, whose bit 0 EPC does not hold (R302). -/
def trapThread (c : Core) (x : Thread) (stamp charge cause vec seg half addr : Nat) (resume : Word) (w : Nat) : Thread :=
  if x.inTrap then { x with run := false, dblTrap := true, pos := stamp + charge }
  else { x with epc := resume &&& 0xFFFFFFFE, trapInfo := BitVec.ofNat 32 w
                trapCause := BitVec.ofNat 32 (seg * 512 + half * 256 + cause), trapAddr := BitVec.ofNat 32 addr, inTrap := true
                pc := BitVec.ofNat 32 ((c.reg O.INST_TVEC).toNat / 256 * 256 + 4 * vec), pos := stamp + charge + 4 }

/-- A long word at `resume` traps before it does anything: 1 vc is charged, and HALF is 0 (R331). -/
def Traps (n t : Nat) (s1 : State) (stamp cause vec seg addr : Nat) (resume : Word) (w : Nat) : State → Prop :=
  ThreadLeft n t s1 (trapThread (s1.core n) ((s1.core n).thread t) stamp 1 cause vec seg 0 addr resume w)

/-- Thread t still runs at its stamp after the accesses of its word, which detected no cause; no memory holds an uncorrectable word. -/
structure StillAt (s : State) (n t stamp : Nat) : Prop where
  runs  : ((s.core n).thread t).run = true
  place : ((s.core n).thread t).pos = stamp
  quiet : s.noCause
  clean : s.clean

/-- The first check that fails, with its cause. -/
def firstFailure (l : List (Bool × Nat)) : Option Nat := (l.find? fun e => e.1).map fun e => e.2

/-- Checks 1 to 6 of R311 on a data access of `len` bytes at offset o of segment g, whose space has `size` bytes: `r` and `w`
tell which rights it needs. -/
def dataChecks (g : SegVal) (size o len : Nat) (r w atomic : Bool) : List (Bool × Nat) :=
  [(o % len != 0, 0x30), (g.space == 0, 0x20), ((r && !tb g.ctrl 0) || (w && !tb g.ctrl 1), 0x21),
   (decide (g.limit < o + len - 1), 0x22), (decide (size ≤ g.base * 1024 + o + len - 1), 0x23),
   (atomic && g.space != 2 && g.space != 3, 0x24)]
/-- Checks 2 to 5 of R311 on a fetch at offset o. -/
def fetchChecks (g : SegVal) (size o : Nat) : List (Bool × Nat) :=
  [(g.space == 0, 0x12), (!tb g.ctrl 2, 0x11), (decide (g.limit < o + 4 - 1), 0x10),
   (decide (size ≤ g.base * 1024 + o + 4 - 1), 0x12)]

/-- The checks on the data access of instance n through segment `seg`. -/
def State.dataFailure (s : State) (n seg o len : Nat) (r w atomic : Bool) : Option Nat :=
  firstFailure (dataChecks ((s.core n).seg seg) (s.spaceSize n ((s.core n).seg seg).space) o len r w atomic)

/-- No held beat of an earlier stamp covers `len` bytes at offset o of segment `seg` (R104). -/
def State.beatFreeAt (s : State) (n seg o len stamp : Nat) : Prop :=
  (s.inst n).beatHides ((s.core n).seg seg).space (((s.core n).seg seg).base * 1024 + o) len stamp = false

/-- The bytes that a program reads at offset o of segment `seg`, whose space is WORK or VRAM (R100, R310). -/
def State.spaceBytes (s : State) (n seg o len : Nat) : List Byte :=
  let a := ((s.core n).seg seg).base * 1024 + o
  if ((s.core n).seg seg).space = 3 then s.vramView n a len
  else (List.range len).map fun i => s.hbm.get zeroByte ((s.inst n).adm.workB + a + i)

/-- Nothing but threads, the controller's view and the full-journal marks of instance n, and the messages of the chip ICU, differs
from s1: every register, every byte of memory, and every other part of the device is as it was. -/
def OnlyThreads (n : Nat) (s1 u : State) : Prop :=
  (∃ lv p w x, u = { s1 with insts := u.insts, safety := { s1.safety with levels := lv }
                             host := { s1.host with pba := p, wake := w }, tx := x })
    ∧ (∀ m, m ≠ n → u.inst m = s1.inst m)
    ∧ u.inst n = { s1.inst n with core := u.core n, fence := (u.inst n).fence }
    ∧ u.core n = { s1.core n with threads := (u.core n).threads, signals := (u.core n).signals, latched := (u.core n).latched
                                  lastKey := (u.core n).lastKey }

/-- What an event of instance n that took effect under key k leaves: the interrupt controller follows, the effects whose turn it is come,
and the command ends. -/
def State.afterEvent (s : State) (n k : Nat) : State := ((s.modCore n fun c => c.passed k).settle n).icuLevels

/-- Nothing outside the instances differs from s but the answer to the host, the wall time and the messages of the chip ICU, and of the
instances only n differs. -/
def OnlyInstance (n : Nat) (s u : State) : Prop :=
  (∃ lv p w x, u = { s with insts := u.insts, answer := u.answer, safety := { s.safety with levels := lv }
                            host := { s.host with pba := p, wake := w }, tx := x })
    ∧ ∀ m, m ≠ n → u.inst m = s.inst m

/-- Nothing of instance n differs but registers and engines of its window: its threads, its rung and its stream are as they were. -/
def OnlyWindow (n : Nat) (s u : State) : Prop :=
  OnlyInstance n s u ∧ u.inst n = { s.inst n with core := u.core n } ∧ (u.core n).threads = (s.core n).threads

/-- A host access reaches the register itself, and not the mirror that stands for its block (R466, R492, R505). -/
def State.Direct (s : State) (p : Path) (a : RegAddr) : Prop :=
  s.hostHit p a = .open ∧ (s.mirrored = true → mirrorHolds p a = false)

/-- A host access of instance n's window reaches it: by the PF or the instance's VF (R13, R62, R466, R492). -/
def HostReaches (s : State) (p : Path) (n : Nat) : Prop :=
  (p = .pf ∨ p = .vf) ∧ s.Direct p (.win n 0) ∧ (s.inst n).adm.state = 2

/-- The count, DOWN, and whether it wraps, after a tick (R366). -/
def tickResult (mode top count : Nat) (down : Bool) : Nat × Bool × Bool :=
  if top = 0 then (0, down, true)
  else if mode = 1 then
    if down = false ∧ count < top then (count + 1, false, false)
    else if down = false then (count - 1, true, count == 1)
    else if 0 < count then (count - 1, true, count == 1)
    else (1, false, false)
  else if count = top then (0, down, true)
  else ((count + 1) % 2 ^ 32, down, (count + 1) % 2 ^ 32 == 0)

/-- The checks of one side of a transfer in the order of R383, with the code of each. -/
def sideChecks (g : SegVal) (size right start count : Nat) : List (Bool × Nat) :=
  [(g.space == 0, 0x1), (!tb g.ctrl right, 0x2), (g.space == 4, 0x5), (decide (g.limit < start + count - 1), 0x3),
   (decide (size ≤ g.base * 1024 + (start + count - 1)), 0x4)]

/-- The chip fault reaction on a cause (R532, R533): FAULT and the cause show; the first one stops the operation under way, blanks the
monitors, and holds every admitted instance. -/
def ChipFaulted (s : State) (cause : Nat) (u : State) : Prop :=
  (u.pf O.SAF_STATUS).getLsbD 31 = true ∧ (u.pf O.SAF_CHIP_CAUSE).getLsbD cause = true
    ∧ (s.chipFault = false → (u.pf O.SAF_STATUS).toNat % 16 = cause ∧ u.safety.faultN = true ∧ u.op = none ∧ (∀ m ∈ u.mons, m.black = true)
      ∧ (Map.wf (fun _ => ({} : Inst)) s.insts = true → ∀ n, (s.inst n).adm.state = 2 →
        ((s.inst n).rung = .playing → (s.inst n).faultHeld = false) → (u.inst n).faultHeld = true ∧ (u.inst n).rung ≠ .playing))

/-- A write of the GPIO block by an agent reaches it and acts (R505, R533, R549). -/
def PinReach (s : State) (a : Agent) (off : Nat) : Prop :=
  (a = .host ∧ s.Direct .pf (.pf off)) ∨ (a ≠ .host ∧ s.boot.powered = true ∧ s.boot.perst = false ∧ s.safety.halted = [])

/-- What a device reset leaves (R10, R555, R556): every register at its reset value but TAMPER_SEEN and WIPES, no instance, no image, the
memories empty; the profile store, the fuses and the flash as they were. -/
def ResetLeaves (s u : State) : Prop :=
  (∀ off, off ≠ O.POOL_VAULT_STATUS → u.pf off = pfReset off) ∧ u.insts = [] ∧ u.image.mode = 3 ∧ u.image.admitted = 0 ∧ u.pool = []
    ∧ u.hbm = [] ∧ u.op = none ∧ u.mram = s.mram ∧ u.fuses = s.fuses ∧ u.boot.copyA = s.boot.copyA ∧ u.boot.copyB = s.boot.copyB
    ∧ u.boot.ready = false ∧ u.host.linkUp = false

/-- A register of PF BAR0 that a write changes by the access types of its fields alone, and a read by its RC fields alone (R5, R7, R8):
no chapter gives it an action, no window or table lies there, and it is no clamp count itself. -/
def PlainReg (r : RegSpec) (off : Nat) : Prop :=
  off < 0x2000000 ∧ off / 0x100000 ≠ 11 ∧ surfaceAt 4 off = false ∧ ¬ (0x780000 ≤ off ∧ off < 0x800000)
    ∧ ¬ (0x804000 ≤ off ∧ off < 0x805000) ∧ ¬ (O.HST_PF_CQ_LO ≤ off ∧ off ≤ O.HST_PF_CQ_CTRL) ∧ clampOf off ≠ some off
    ∧ off ∉ [O.HBM_STATUS, O.POOL_COLLIDED_COUNT, O.HST_TAGS, O.MGT_IMG_CTRL, O.MGT_FUSE_ARM, O.POOL_ECC_CTRL, O.EXT_CMD, O.HST_PF_CQ_DB,
        O.PWR_CTRL, O.SAF_FORCE, O.SAF_TEST_REQ, O.MGT_MBX_CMD]
    ∧ r.off ∉ [O.VID_PACE_CTRL, O.CMP_BELL_COMMIT, O.EXT_SPAN_FIRST, O.EXT_SPAN_COUNT, O.HST_MV_TAIL, O.HST_MV_RING_CTRL,
        O.CDC_INST_MODE]

/-- The registers of PF BAR0 but one are as they were, and so are the instances. -/
def OnlyReg (off : Nat) (s u : State) : Prop := (∀ o, o ≠ off → u.pf o = s.pf o) ∧ u.insts = s.insts ∧ u.pool = s.pool ∧ u.hbm = s.hbm

end Sys2Proof.Machine
end

