-- ==== Sys2Proof/Certificates/Slice0/Obligations.lean ====
section
/-! DEFINITION. The statements for the provers about this model of the Buenuri, family by family of the command table. Each docstring
names the rules or the log entries that its statement rests on. -/
open Sys2Proof Sys2Proof.Machine

/-- A step takes the command at the front of the queue and runs it on the queue's rest. -/
def Obligations.StepRunsFrontCommand : Prop :=
  ∀ (c : Instr) (rest : List Instr) (s : State), step { s with pending := c :: rest } = exec c { s with pending := rest }

/-- With no command waiting a step changes nothing but the counter of wall time, which goes on by one count (the model's choice,
log entry 1; R497 gives the counter). -/
def Obligations.EmptyQueueCountsTime : Prop :=
  ∀ s : State, s.pending = [] → step s = .next { s with wall := s.wall + 1 }

/-- ADD to SUBS and the CRC steps (R305, R308, R315, R318 to R320, R301): the result, the cost, the next PC and the frame. The ALU functions of one operand (R305, R308, R315, R318, R319, R301). -/
def Obligations.AluWords : Prop :=
  (∀ e ∈ aluTwoRows ++ aluCrcRows, ∀ (n t gd ga gb stamp : Nat) (s s1 : State), gd < 32 → ga < 32 → gb < 32 →
    Begins s n t stamp (longWord 0x00 gd ga (gb * 1024 + e.code)) s1 →
    NextWith (exec (e.cmd n t ⟨gd, ga, gb, 0⟩) s)
      (WordDone n t s1 stamp e.cost (s1.nextPc n t) (putReg (s1.gr n t) gd (e.op (s1.gr n t ga) (s1.gr n t gb)))))
  ∧ (∀ e ∈ aluOneRows ++ aluBitRows, ∀ (n t gd ga stamp : Nat) (s s1 : State), gd < 32 → ga < 32 →
    Begins s n t stamp (longWord 0x00 gd ga e.code) s1 →
    NextWith (exec (e.cmd n t ⟨gd, ga, 0, 0⟩) s)
      (WordDone n t s1 stamp e.cost (s1.nextPc n t) (putReg (s1.gr n t) gd (e.op (s1.gr n t ga)))))

/-- DIVS and DIVU (R315, R319): the quotient to gd, the remainder to g(d + 1), gd even; with gd = g0 only the remainder stays. -/
def Obligations.DivisionWords : Prop :=
  ∀ e ∈ divisionRows, ∀ (n t gd ga gb stamp : Nat) (s s1 : State), gd < 32 → gd % 2 = 0 → ga < 32 → gb < 32 →
    Begins s n t stamp (longWord 0x00 gd ga (gb * 1024 + e.code)) s1 →
    NextWith (exec (e.cmd n t ⟨gd, ga, gb, 0⟩) s)
      (WordDone n t s1 stamp e.cost (s1.nextPc n t)
        (putReg (putReg (s1.gr n t) gd (e.op (s1.gr n t ga) (s1.gr n t gb)).1) (gd + 1) (e.op (s1.gr n t ga) (s1.gr n t gb)).2))

/-- The words with an immediate operand, the shifts by an immediate count, LUI and SEL (R305, R314, R318, R319). -/
def Obligations.ImmediateWords : Prop :=
  (∀ e ∈ immRows, ∀ (n t gd ga stamp : Nat) (imm : BitVec 15) (s s1 : State), gd < 32 → ga < 32 →
    Begins s n t stamp (longWord e.code gd ga imm.toNat) s1 →
    NextWith (exec (e.cmd n t ⟨gd, ga, imm.toNat⟩) s)
      (WordDone n t s1 stamp e.cost (s1.nextPc n t) (putReg (s1.gr n t) gd (e.op (s1.gr n t ga) imm))))
  ∧ (∀ e ∈ shiftRows, ∀ (n t gd ga count stamp : Nat) (s s1 : State), gd < 32 → ga < 32 → count < 256 →
    Begins s n t stamp (longWord e.code gd ga count) s1 →
    NextWith (exec (e.cmd n t ⟨gd, ga, count⟩) s)
      (WordDone n t s1 stamp e.cost (s1.nextPc n t) (putReg (s1.gr n t) gd (e.op (s1.gr n t ga) count))))
  ∧ (∀ (n t gd imm stamp : Nat) (s s1 : State), gd < 32 → imm < 2 ^ 20 →
    Begins s n t stamp (0x03 * 2 ^ 25 + gd * 2 ^ 20 + imm) s1 →
    NextWith (exec (.lui n t ⟨gd, imm⟩) s)
      (WordDone n t s1 stamp 1 (s1.nextPc n t) (putReg (s1.gr n t) gd (BitVec.ofNat 32 imm <<< 12))))
  ∧ ∀ (n t gd ga gb gc stamp : Nat) (s s1 : State), gd < 32 → ga < 32 → gb < 32 → gc < 32 →
    Begins s n t stamp (longWord 0x01 gd ga (gb * 1024 + gc * 32)) s1 →
    NextWith (exec (.sel n t ⟨gd, ga, gb, gc, 0⟩) s)
      (WordDone n t s1 stamp 1 (s1.nextPc n t)
        (putReg (s1.gr n t) gd (if s1.gr n t gc = 0 then s1.gr n t gb else s1.gr n t ga)))

/-- Loads (R301, R308, R311, R314, R321): the loaded value, extended as the word says, goes to gd; LD moves two words. -/
def Obligations.LoadWords : Prop :=
  (∀ e ∈ loadRows, ∀ (n t gd ga seg stamp v : Nat) (imm : BitVec 12) (s s1 s2 : State), gd < 32 → ga < 32 → seg < 8 →
    Begins s n t stamp (longWord e.code gd ga (seg * 4096 + imm.toNat)) s1 →
    s1.load n t stamp seg (offsetOf (s1.gr n t ga) imm) e.op.1 = .ok v s2 → StillAt s2 n t stamp →
    NextWith (exec (e.cmd n t ⟨gd, ga, seg, imm.toNat⟩) s)
      (WordDone n t s2 stamp e.cost (s2.nextPc n t) (putReg (s2.gr n t) gd (e.op.2 v))))
  ∧ ∀ (n t gd ga seg stamp v : Nat) (imm : BitVec 12) (s s1 s2 : State), gd < 32 → gd % 2 = 0 → ga < 32 → seg < 8 →
    Begins s n t stamp (longWord 0x15 gd ga (seg * 4096 + imm.toNat)) s1 →
    s1.load n t stamp seg (offsetOf (s1.gr n t ga) imm) 8 = .ok v s2 → StillAt s2 n t stamp →
    NextWith (exec (.ld n t ⟨gd, ga, seg, imm.toNat⟩) s)
      (WordDone n t s2 stamp 3 (s2.nextPc n t)
        (putReg (putReg (s2.gr n t) gd (BitVec.ofNat 32 v)) (gd + 1) (BitVec.ofNat 32 (v / 2 ^ 32))))

/-- Stores (R301, R308, R311, R314, R321): gd, or gd with g(d + 1), is stored, and no register changes. -/
def Obligations.StoreWords : Prop :=
  (∀ e ∈ storeRows, ∀ (n t gd ga seg stamp : Nat) (imm : BitVec 12) (s s1 s2 : State), gd < 32 → ga < 32 → seg < 8 →
    Begins s n t stamp (longWord e.code gd ga (seg * 4096 + imm.toNat)) s1 →
    s1.store n t stamp seg (offsetOf (s1.gr n t ga) imm) e.op (s1.gr n t gd).toNat = .ok () s2 → StillAt s2 n t stamp →
    NextWith (exec (e.cmd n t ⟨gd, ga, seg, imm.toNat⟩) s) (WordDone n t s2 stamp e.cost (s2.nextPc n t) (s2.gr n t)))
  ∧ ∀ (n t gd ga seg stamp : Nat) (imm : BitVec 12) (s s1 s2 : State), gd < 32 → gd % 2 = 0 → ga < 32 → seg < 8 →
    Begins s n t stamp (longWord 0x1B gd ga (seg * 4096 + imm.toNat)) s1 →
    s1.store n t stamp seg (offsetOf (s1.gr n t ga) imm) 8 ((s1.gr n t gd).toNat + (s1.gr n t (gd + 1)).toNat * 2 ^ 32)
      = .ok () s2 → StillAt s2 n t stamp →
    NextWith (exec (.sd n t ⟨gd, ga, seg, imm.toNat⟩) s) (WordDone n t s2 stamp 2 (s2.nextPc n t) (s2.gr n t))

/-- AADD and ASWP (R301, R308, R311, R314, R324): where the checks of R311 pass, no held beat covers the word and the journal has room for
a store to VRAM, the word completes: gd takes the old word, and the word in memory the new one, as `State.atomic` leaves it: in work
RAM at the bytes themselves, in VRAM as the program's later reads see it (R100, R323). -/
def Obligations.AtomicWords : Prop :=
  (∀ e ∈ atomicRows, ∀ (n t gd ga seg stamp : Nat) (imm : BitVec 12) (s s1 : State), gd < 32 → ga < 32 → seg < 8 →
    Begins s n t stamp (longWord e.code gd ga (seg * 4096 + imm.toNat)) s1 →
    s1.dataFailure n seg (offsetOf (s1.gr n t ga) imm) 4 true true true = none →
    s1.beatFreeAt n seg (offsetOf (s1.gr n t ga) imm) 4 stamp → (((s1.core n).seg seg).space = 3 → s1.journalFull n = false) →
    NextWith (exec (e.cmd n t ⟨gd, ga, seg, imm.toNat⟩) s)
      (WordDone n t s1 stamp e.cost (s1.nextPc n t)
        (putReg (s1.gr n t) gd (BitVec.ofNat 32 (leNat (s1.spaceBytes n seg (offsetOf (s1.gr n t ga) imm) 4))))))
  ∧ (∀ e ∈ atomicRows, ∀ (n t gd ga seg stamp v : Nat) (imm : BitVec 12) (s s1 s2 : State), gd < 32 → ga < 32 → seg < 8 →
    Begins s n t stamp (longWord e.code gd ga (seg * 4096 + imm.toNat)) s1 →
    s1.atomic n t stamp seg (offsetOf (s1.gr n t ga) imm) (fun x => (e.op (BitVec.ofNat 32 x) (s1.gr n t gd)).toNat) = .ok v s2 →
    StillAt s2 n t stamp →
    NextWith (exec (e.cmd n t ⟨gd, ga, seg, imm.toNat⟩) s)
      (WordDone n t s2 stamp e.cost (s2.nextPc n t) (putReg (s2.gr n t) gd (BitVec.ofNat 32 v))))
  ∧ ∀ (n t stamp seg o : Nat) (f : Nat → Nat) (s : State), s.dataFailure n seg o 4 true true true = none → s.clean →
    s.beatFreeAt n seg o 4 stamp → (((s.core n).seg seg).space = 3 → s.journalFull n = false) →
    ∃ s2, s.atomic n t stamp seg o f = .ok (leNat (s.spaceBytes n seg o 4)) s2
      ∧ s2.spaceBytes n seg o 4 = leBytes 4 (f (leNat (s.spaceBytes n seg o 4)))
      ∧ (((s.core n).seg seg).space = 2 → s2.pool = s.pool ∧ ∀ a, ¬((s.inst n).adm.workB + (((s.core n).seg seg).base * 1024 + o) ≤ a
          ∧ a < (s.inst n).adm.workB + (((s.core n).seg seg).base * 1024 + o) + 4) → s2.hbm.get zeroByte a = s.hbm.get zeroByte a)
      ∧ (((s.core n).seg seg).space = 3 → s2.hbm = s.hbm ∧ ∀ a, ¬(((s.core n).seg seg).base * 1024 + o ≤ a
          ∧ a < ((s.core n).seg seg).base * 1024 + o + 4) → s2.vramView n a 1 = s.vramView n a 1)

/-- A load reads the bytes that work RAM or VRAM holds at the segment's base and the offset, and changes nothing, where the checks
of R311 pass, no word of the memory is corrupted, and no held beat of an earlier stamp covers the bytes; such a beat makes the load
wait (R104). VRAM is seen through the journal (R2, R100, R310, R311, R321). -/
def Obligations.LoadsReadMemory : Prop :=
  (∀ (n t stamp seg o len : Nat) (s : State), s.dataFailure n seg o len true false false = none → s.beatFreeAt n seg o len stamp →
    (((s.core n).seg seg).space = 2 → s.mem.hbmCe = [] → s.mem.hbmUe = [] →
      s.load n t stamp seg o len = .ok
        (leNat ((List.range len).map fun i => s.hbm.get zeroByte ((s.inst n).adm.workB + (((s.core n).seg seg).base * 1024 + o) + i))) s)
    ∧ (((s.core n).seg seg).space = 3 → s.mem.poolCe = [] → s.mem.poolUe = [] →
      s.load n t stamp seg o len = .ok (leNat (s.vramView n (((s.core n).seg seg).base * 1024 + o) len)) s
      ∧ ((s.inst n).journal = [] → ∀ v, s.vramView n v len
          = (List.range len).map fun i => s.pool.get zeroByte ((s.inst n).adm.pool * 16384 + v + i))))
  ∧ ∀ (n t stamp seg o len : Nat) (s : State), s.dataFailure n seg o len true false false = none → ¬ s.beatFreeAt n seg o len stamp →
    s.load n t stamp seg o len = .stall false

/-- A store to work RAM changes the bytes at the segment's base and the offset, and no other byte of any memory (R310, R311, R321), unless
a held beat of an earlier stamp covers one of them (R104). A store to VRAM is seen at once by the program's later reads at the bytes
stored, and at no other byte (R98 to R100, R310, R311, R321, R323); it needs a free journal entry. -/
def Obligations.StoresReachMemory : Prop :=
  (∀ (n t stamp seg o len v : Nat) (s : State), s.dataFailure n seg o len false true false = none →
    ((s.core n).seg seg).space = 2 → s.beatFreeAt n seg o len stamp →
    ∃ s2, s.store n t stamp seg o len v = .ok () s2 ∧ s2.pool = s.pool ∧ (s2.core n).threads = (s.core n).threads
      ∧ ∀ a, s2.hbm.get zeroByte a =
          if (s.inst n).adm.workB + (((s.core n).seg seg).base * 1024 + o) ≤ a
              ∧ a < (s.inst n).adm.workB + (((s.core n).seg seg).base * 1024 + o) + len
          then BitVec.ofNat 8 (v / 256 ^ (a - ((s.inst n).adm.workB + (((s.core n).seg seg).base * 1024 + o))))
          else s.hbm.get zeroByte a)
  ∧ (∀ (n t stamp seg o len v : Nat) (s : State), s.dataFailure n seg o len false true false = none →
    ((s.core n).seg seg).space = 3 → s.journalFull n = false →
    ∃ s2, s.store n t stamp seg o len v = .ok () s2 ∧ s2.hbm = s.hbm ∧ (s2.core n).threads = (s.core n).threads
      ∧ ∀ a, s2.vramView n a 1 =
          if ((s.core n).seg seg).base * 1024 + o ≤ a ∧ a < ((s.core n).seg seg).base * 1024 + o + len
          then [BitVec.ofNat 8 (v / 256 ^ (a - (((s.core n).seg seg).base * 1024 + o)))]
          else s.vramView n a 1)

/-- A taken branch, jump, call or JALR sets the PC to its target at the taken cost; DBNZ writes gc whether or not it branches, CALL
writes g31, and JALR writes gd after it has read ga (R326, with the encodings of R305 and the costs of R314).
DBNZ on g0 rests on log entry 20. -/
def Obligations.BranchAndJumpWords : Prop :=
  (∀ (n t gc stamp : Nat) (disp : BitVec 20) (s s1 : State), gc < 32 →
    (Begins s n t stamp (0x20 * 2 ^ 25 + gc * 2 ^ 20 + disp.toNat) s1 →
      NextWith (exec (.bz n t ⟨gc, disp.toNat⟩) s)
        (if s1.gr n t gc = 0 then WordDone n t s1 stamp 2 (s1.wordAddr n t + 4 * disp.signExtend 32) (s1.gr n t)
          else WordDone n t s1 stamp 1 (s1.nextPc n t) (s1.gr n t)))
    ∧ (Begins s n t stamp (0x21 * 2 ^ 25 + gc * 2 ^ 20 + disp.toNat) s1 →
      NextWith (exec (.bnz n t ⟨gc, disp.toNat⟩) s)
        (if s1.gr n t gc ≠ 0 then WordDone n t s1 stamp 2 (s1.wordAddr n t + 4 * disp.signExtend 32) (s1.gr n t)
          else WordDone n t s1 stamp 1 (s1.nextPc n t) (s1.gr n t)))
    ∧ (Begins s n t stamp (0x22 * 2 ^ 25 + gc * 2 ^ 20 + disp.toNat) s1 →
      NextWith (exec (.dbnz n t ⟨gc, disp.toNat⟩) s)
        (if s1.gr n t gc - 1 ≠ 0
          then WordDone n t s1 stamp 2 (s1.wordAddr n t + 4 * disp.signExtend 32) (putReg (s1.gr n t) gc (s1.gr n t gc - 1))
          else WordDone n t s1 stamp 1 (s1.nextPc n t) (putReg (s1.gr n t) gc (s1.gr n t gc - 1)))))
  ∧ (∀ (n t stamp : Nat) (disp : BitVec 25) (s s1 : State),
    (Begins s n t stamp (0x24 * 2 ^ 25 + disp.toNat) s1 →
      NextWith (exec (.j n t ⟨disp.toNat⟩) s)
        (WordDone n t s1 stamp 2 (s1.wordAddr n t + 4 * disp.signExtend 32) (s1.gr n t)))
    ∧ (Begins s n t stamp (0x25 * 2 ^ 25 + disp.toNat) s1 →
      NextWith (exec (.call n t ⟨disp.toNat⟩) s)
        (WordDone n t s1 stamp 2 (s1.wordAddr n t + 4 * disp.signExtend 32) (putReg (s1.gr n t) 31 (s1.wordAddr n t + 4)))))
  ∧ ∀ (n t gd ga stamp : Nat) (s s1 : State), gd < 32 → ga < 32 → Begins s n t stamp (longWord 0x26 gd ga 0) s1 →
    NextWith (exec (.jalr n t ⟨gd, ga, 0⟩) s)
      (WordDone n t s1 stamp 2 (s1.gr n t ga) (putReg (s1.gr n t) gd (s1.wordAddr n t + 4)))

/-- NOP, WAIT and STOP (R301, R302, R316, R338, R360): what becomes of the thread. -/
def Obligations.SystemWords : Prop :=
  ∀ (n t stamp : Nat) (s s1 : State),
    (Begins s n t stamp (longWord 0x02 0 0 0x00) s1 →
      NextWith (exec (.nop n t ⟨0, 0, 0, 0⟩) s) (WordDone n t s1 stamp 1 (s1.nextPc n t) (s1.gr n t)))
    ∧ (Begins s n t stamp (longWord 0x02 0 0 0x01) s1 →
      NextWith (exec (.wait n t ⟨0, 0, 0, 0⟩) s) (ThreadLeft n t s1
        { (s1.core n).thread t with waiting := true, pc := s1.nextPc n t, pos := stamp + 1 }))
    ∧ (Begins s n t stamp (longWord 0x02 0 0 0x06) s1 →
      NextWith (exec (.stop n t ⟨0, 0, 0, 0⟩) s) (ThreadLeft n t s1
        { (s1.core n).thread t with run := false, pc := s1.nextPc n t, pos := stamp + 1 }))

/-- MFSR and MTSR (R302, R303): a copy out of and into a special register of the thread; a write to a read-only one is ignored, and an
unassigned index traps RSVD_SR. -/
def Obligations.SpecialRegisterWords : Prop :=
  ∀ (n t stamp k : Nat) (s s1 : State), k < 32 →
    (∀ gd : Nat, gd < 32 → Begins s n t stamp (longWord 0x02 gd 0 (k * 1024 + 0x04)) s1 →
      NextWith (exec (.mfsr n t ⟨gd, 0, k, 0⟩) s)
        (if k < 8 then WordDone n t s1 stamp 1 (s1.nextPc n t) (putReg (s1.gr n t) gd
          (let x := (s1.core n).thread t
           let slots := (s1.inst n).adm.slots
           [BitVec.ofNat 32 ((if slots = 1 then 0 else if slots = 2 then 4 else if slots = 4 then 8 else 4 * (slots - 1)) + t),
             BitVec.ofNat 32 ((if x.waiting then 2 else 0) + if x.inTrap then 1 else 0), x.epc &&& 0xFFFFFFFE, x.trapInfo,
             x.trapCause, x.trapAddr, x.scratch0, x.scratch1].getD k 0))
        else Traps n t s1 stamp 0x03 1 0 0 (s1.wordAddr n t) (longWord 0x02 gd 0 (k * 1024 + 0x04))))
    ∧ ∀ ga : Nat, ga < 32 → Begins s n t stamp (longWord 0x02 0 ga (k * 1024 + 0x05)) s1 →
      NextWith (exec (.mtsr n t ⟨0, ga, k, 0⟩) s)
        (if k < 8 then ThreadLeft n t s1
          (let x := { (s1.core n).thread t with pc := s1.nextPc n t, pos := stamp + 2 }
           if k = 2 then { x with epc := s1.gr n t ga &&& 0xFFFFFFFE }
           else if k = 6 then { x with scratch0 := s1.gr n t ga }
           else if k = 7 then { x with scratch1 := s1.gr n t ga } else x)
        else Traps n t s1 stamp 0x03 1 0 0 (s1.wordAddr n t) (longWord 0x02 0 ga (k * 1024 + 0x05)))

/-- IRET (R335, R355): the return from a trap; the return from the innermost interrupt, whose PC goes to the resume point at once and
whose stack, IN_TRAP and level change when it completes, 3 vc after its stamp; and BAD_IRET with neither. -/
def Obligations.IretReturns : Prop :=
  (∀ (n t stamp : Nat) (s s1 : State), Begins s n t stamp (longWord 0x02 0 0 0x02) s1 →
    (((s1.core n).thread t).inTrap = true → NextWith (exec (.iret n t ⟨0, 0, 0, 0⟩) s) (ThreadLeft n t s1
      { (s1.core n).thread t with inTrap := false, pc := ((s1.core n).thread t).epc, pos := stamp + 3 }))
    ∧ (∀ e r, ((s1.core n).thread t).inTrap = false → ((s1.core n).thread t).stack = e :: r → (s1.core n).noReturn t →
      NextWith (exec (.iret n t ⟨0, 0, 0, 0⟩) s) fun u =>
        ((u.core n).thread t = { (s1.core n).thread t with stack := r, inTrap := e.inTrap, level := e.level, pc := e.resume, pos := stamp + 3 }
          ∨ ((u.core n).thread t = { (s1.core n).thread t with pc := e.resume, pos := stamp + 3 }
            ∧ (keyOf (stamp + 3) 5 t, .endService t (r.length + 1)) ∈ (u.core n).micro))
        ∧ (∀ y, y ≠ t → ((s1.core n).thread y).Returned ((u.core n).thread y)
          ∧ ((s1.core n).noReturn y → (u.core n).thread y = (s1.core n).thread y)) ∧ ∀ m, m ≠ n → u.inst m = s1.inst m)
    ∧ (((s1.core n).thread t).inTrap = false → ((s1.core n).thread t).stack = [] →
      NextWith (exec (.iret n t ⟨0, 0, 0, 0⟩) s)
        (Traps n t s1 stamp 0x50 6 0 0 (s1.wordAddr n t) (longWord 0x02 0 0 0x02))))
  ∧ ∀ (t : Nat) (c : Core) (x : Thread) (e : IntFrame) (r : List IntFrame), t < c.threads.length → c.thread t = x → x.stack = e :: r →
    (c.endReturn t (r.length + 1)).thread t = { x with stack := r, inTrap := e.inTrap, level := e.level }
      ∧ ∀ z, z ∈ (c.endReturn t (r.length + 1)).claims ↔ z ∈ c.claims ∧ ¬(z.thread = t ∧ z.depth = r.length + 1)

/-- TRAP and the reserved opcodes (R328 to R333): SWI resumes at the next word, RSVD_OP at the word itself; a pair whose B half is
reserved keeps what A did, and a trap within a trap stops the thread.
The trap within a trap rests on log entry 22. -/
def Obligations.TrapAndReservedWords : Prop :=
  (∀ (n t code stamp : Nat) (s s1 : State), code < 32 → Begins s n t stamp (longWord 0x02 0 0 (code * 1024 + 0x03)) s1 →
    NextWith (exec (.trap n t ⟨0, 0, code, 0⟩) s)
      (Traps n t s1 stamp 0x40 5 0 0 (s1.nextPc n t) (longWord 0x02 0 0 (code * 1024 + 0x03))))
  ∧ (∀ (n t op low stamp : Nat) (s s1 : State), low < 2 ^ 25 →
    (op ∈ [0x1C, 0x1D, 0x1E, 0x1F, 0x23, 0x27] ∨ (0x28 ≤ op ∧ op ≤ 0x3F)
      ∨ (op = 0x00 ∧ (low % 64 ∈ [0x1E, 0x1F, 0x2D, 0x2E, 0x2F] ∨ 0x33 ≤ low % 64)) ∨ (op = 0x02 ∧ 7 ≤ low % 64)) →
    Begins s n t stamp (op * 2 ^ 25 + low) s1 →
    NextWith (exec (.reservedOpcode n t (BitVec.ofNat 32 (op * 2 ^ 25 + low))) s)
      (Traps n t s1 stamp 0x01 1 0 0 (s1.wordAddr n t) (op * 2 ^ 25 + low)))
  ∧ (∀ (n t a b stamp : Nat) (s s1 : State), a < 2 ^ 15 → b < 2 ^ 15 → a / 1024 ∈ [0x13, 0x1E, 0x1F] →
    ((s.core n).thread t).pc.getLsbD 1 = false →
    Begins s n t stamp (pairWord a b) s1 →
    NextWith (exec (.reservedOpcode n t (BitVec.ofNat 32 (pairWord a b))) s)
      (Traps n t s1 stamp 0x01 1 0 0 (s1.wordAddr n t) (pairWord a b)))
  ∧ ∀ e ∈ shortRows, ∀ (n t gd gs b stamp : Nat) (s s1 : State), gd < 32 → gs < 32 → b < 2 ^ 15 → b / 1024 ∈ [0x13, 0x1E, 0x1F] →
    ((s.core n).thread t).pc.getLsbD 1 = false → Begins s n t stamp (pairWord (shortOf e.sop gd gs) b) s1 →
    NextWith (exec (.reservedOpcode n t (BitVec.ofNat 32 (pairWord (shortOf e.sop gd gs) b))) s) fun u =>
      (∃ m, ThreadLeft n t s1 (trapThread (s1.core n) { (s1.core n).thread t with g := m } stamp (e.cost + 1) 0x01 1 0 1 0
        (s1.wordAddr n t ||| 2) (pairWord (shortOf e.sop gd gs) b)) u)
      ∧ ∀ r, u.gr n t r = if r = 0 then 0 else shortDone e gd gs (s1.gr n t) r

/-- A 1 in a reserved bit of a defined word traps RSVD_BITS before the word does anything (R329, R331 to R333).
Its order before other traps rests on log entry 19. -/
def Obligations.ReservedBitsTrap : Prop :=
  (∀ e ∈ aluTwoRows ++ aluCrcRows, ∀ (n t gd ga gb rsv stamp : Nat) (s s1 : State), gd < 32 → ga < 32 → gb < 32 →
    0 < rsv → rsv < 16 → Begins s n t stamp (longWord 0x00 gd ga (gb * 1024 + rsv * 64 + e.code)) s1 →
    NextWith (exec (e.cmd n t ⟨gd, ga, gb, rsv⟩) s)
      (Traps n t s1 stamp 0x02 1 0 0 (s1.wordAddr n t) (longWord 0x00 gd ga (gb * 1024 + rsv * 64 + e.code))))
  ∧ (∀ e ∈ aluOneRows ++ aluBitRows, ∀ (n t gd ga gb rsv stamp : Nat) (s s1 : State), gd < 32 → ga < 32 → gb < 32 → rsv < 16 →
    0 < gb + rsv → Begins s n t stamp (longWord 0x00 gd ga (gb * 1024 + rsv * 64 + e.code)) s1 →
    NextWith (exec (e.cmd n t ⟨gd, ga, gb, rsv⟩) s)
      (Traps n t s1 stamp 0x02 1 0 0 (s1.wordAddr n t) (longWord 0x00 gd ga (gb * 1024 + rsv * 64 + e.code))))
  ∧ (∀ e ∈ divisionRows, ∀ (n t gd ga gb rsv stamp : Nat) (s s1 : State), gd < 32 → ga < 32 → gb < 32 → rsv < 16 →
    0 < gd % 2 + rsv → Begins s n t stamp (longWord 0x00 gd ga (gb * 1024 + rsv * 64 + e.code)) s1 →
    NextWith (exec (e.cmd n t ⟨gd, ga, gb, rsv⟩) s)
      (Traps n t s1 stamp 0x02 1 0 0 (s1.wordAddr n t) (longWord 0x00 gd ga (gb * 1024 + rsv * 64 + e.code))))
  ∧ (∀ (n t gd ga gb gc rsv stamp : Nat) (s s1 : State), gd < 32 → ga < 32 → gb < 32 → gc < 32 → 0 < rsv → rsv < 32 →
    Begins s n t stamp (longWord 0x01 gd ga (gb * 1024 + gc * 32 + rsv)) s1 →
    NextWith (exec (.sel n t ⟨gd, ga, gb, gc, rsv⟩) s)
      (Traps n t s1 stamp 0x02 1 0 0 (s1.wordAddr n t) (longWord 0x01 gd ga (gb * 1024 + gc * 32 + rsv))))
  ∧ (∀ (n t gd ga imm stamp : Nat) (s s1 : State), gd < 32 → ga < 32 → 0 < imm → imm < 2 ^ 15 →
    Begins s n t stamp (longWord 0x26 gd ga imm) s1 →
    NextWith (exec (.jalr n t ⟨gd, ga, imm⟩) s) (Traps n t s1 stamp 0x02 1 0 0 (s1.wordAddr n t) (longWord 0x26 gd ga imm)))
  ∧ (∀ e ∈ shiftRows, ∀ (n t gd ga imm stamp : Nat) (s s1 : State), gd < 32 → ga < 32 → 256 ≤ imm → imm < 2 ^ 15 →
    Begins s n t stamp (longWord e.code gd ga imm) s1 →
    NextWith (exec (e.cmd n t ⟨gd, ga, imm⟩) s) (Traps n t s1 stamp 0x02 1 0 0 (s1.wordAddr n t) (longWord e.code gd ga imm)))
  ∧ (∀ e ∈ ([⟨.ld, 0x15, 0, 0⟩, ⟨.sd, 0x1B, 0, 0⟩] : List (OpRow FmtM Nat)), ∀ (n t gd ga low stamp : Nat) (s s1 : State), gd < 32 →
    gd % 2 = 1 → ga < 32 → low < 2 ^ 15 → Begins s n t stamp (longWord e.code gd ga low) s1 →
    NextWith (exec (e.cmd n t ⟨gd, ga, low / 4096, low % 4096⟩) s)
      (Traps n t s1 stamp 0x02 1 0 0 (s1.wordAddr n t) (longWord e.code gd ga low)))
  ∧ (∀ (n t a b stamp : Nat) (s s1 : State), a < 2 ^ 15 → b < 2 ^ 15 → a / 1024 ∉ [0x13, 0x1E, 0x1F] → b / 1024 ∉ [0x13, 0x1E, 0x1F] →
    Begins s n t stamp (pairWord a (2 ^ 15 + b)) s1 →
    NextWith (exec (.pair n t ⟨a, 1, b⟩) s) (Traps n t s1 stamp 0x02 1 0 0 (s1.wordAddr n t) (pairWord a (2 ^ 15 + b))))
  ∧ (∀ (n t a b stamp : Nat) (s s1 : State), 0 < a → a < 2 ^ 10 → b < 2 ^ 15 → ((s.core n).thread t).pc.getLsbD 1 = false →
    Begins s n t stamp (pairWord a b) s1 →
    NextWith (exec (.pair n t ⟨a, 0, b⟩) s) (Traps n t s1 stamp 0x02 1 0 0 (s1.wordAddr n t) (pairWord a b)))
  ∧ ∀ e ∈ ([⟨.nop, 0, 0, (false, false, false)⟩, ⟨.wait, 1, 0, (false, false, false)⟩, ⟨.iret, 2, 0, (false, false, false)⟩,
      ⟨.trap, 3, 0, (false, false, true)⟩, ⟨.mfsr, 4, 0, (true, false, true)⟩, ⟨.mtsr, 5, 0, (false, true, true)⟩,
      ⟨.stop, 6, 0, (false, false, false)⟩] : List (OpRow FmtY (Bool × Bool × Bool))),
    ∀ (n t gd ga sr rsv stamp : Nat) (s s1 : State), gd < 32 → ga < 32 → sr < 32 → rsv < 16 →
    (0 < rsv ∨ (e.op.1 = false ∧ 0 < gd) ∨ (e.op.2.1 = false ∧ 0 < ga) ∨ (e.op.2.2 = false ∧ 0 < sr)) →
    Begins s n t stamp (longWord 0x02 gd ga (sr * 1024 + rsv * 64 + e.code)) s1 →
    NextWith (exec (e.cmd n t ⟨gd, ga, sr, rsv⟩) s)
      (Traps n t s1 stamp 0x02 1 0 0 (s1.wordAddr n t) (longWord 0x02 gd ga (sr * 1024 + rsv * 64 + e.code)))

/-- A pair of short instructions that neither load nor store: B sees what A did, and the cost is the sum; with the half bit of the
PC at 1, B alone runs (R301, R306 to R309, R317, R319, R327). The short loads and stores, after a short NOP in the A half (R306 to R308, R311, R317): LW1 and SW1 through SEG[1], LW3 and SW3
through SEG[3]. -/
def Obligations.ShortInstructions : Prop :=
  (∀ e ∈ shortRows, ∀ f ∈ shortRows, ∀ (n t ad as' bd bs stamp : Nat) (s s1 : State), ad < 32 → as' < 32 → bd < 32 → bs < 32 →
    Begins s n t stamp (pairWord (shortOf e.sop ad as') (shortOf f.sop bd bs)) s1 →
    NextWith (exec (.pair n t ⟨shortOf e.sop ad as', 0, shortOf f.sop bd bs⟩) s)
      (if ((s.core n).thread t).pc.getLsbD 1
        then WordDone n t s1 stamp f.cost (s1.nextPc n t) (shortDone f bd bs (s1.gr n t))
        else WordDone n t s1 stamp (e.cost + f.cost) (s1.nextPc n t)
          (shortDone f bd bs (readReg (shortDone e ad as' (s1.gr n t))))))
  ∧ (∀ (n t gd gs stamp : Nat) (s s1 s2 : State), gd < 32 → gs < 32 → ((s.core n).thread t).pc.getLsbD 1 = false →
    (∀ v, ∀ c ∈ [(0x1A, 1), (0x1C, 3)], Begins s n t stamp (pairWord 0 (shortOf c.1 gd gs)) s1 →
      s1.load n t stamp c.2 (s1.gr n t gs).toNat 4 = .ok v s2 → StillAt s2 n t stamp →
      NextWith (exec (.pair n t ⟨0, 0, shortOf c.1 gd gs⟩) s)
        (WordDone n t s2 stamp 3 (s1.nextPc n t) (putReg (s2.gr n t) gd (BitVec.ofNat 32 v))))
    ∧ ∀ c ∈ [(0x1B, 1), (0x1D, 3)], Begins s n t stamp (pairWord 0 (shortOf c.1 gd gs)) s1 →
      s1.store n t stamp c.2 (s1.gr n t gs).toNat 4 (s1.gr n t gd).toNat = .ok () s2 → StillAt s2 n t stamp →
      NextWith (exec (.pair n t ⟨0, 0, shortOf c.1 gd gs⟩) s) (WordDone n t s2 stamp 2 (s1.nextPc n t) (s2.gr n t)))

/-- The checks of R311 in their order: the first that fails gives the cause of the trap, whose vector is 4 for ALIGN and else 3; the
segment and the offset are recorded, and nothing is read or written (R311, R328, R331 to R333). A fetch that fails traps with vector 2 and TRAPINFO 0, and resumes at the faulting PC, whatever word the command names (R311, R325,
R327, R328, R331, R332).
The order of traps within a word rests on log entry 19. -/
def Obligations.AccessChecksTrap : Prop :=
  (∀ (n t gd ga seg stamp c : Nat) (imm : BitVec 12) (s s1 : State), gd < 32 → ga < 32 → seg < 8 →
    (∀ e ∈ loadRows, Begins s n t stamp (longWord e.code gd ga (seg * 4096 + imm.toNat)) s1 →
      s1.dataFailure n seg (offsetOf (s1.gr n t ga) imm) e.op.1 true false false = some c →
      NextWith (exec (e.cmd n t ⟨gd, ga, seg, imm.toNat⟩) s) (Traps n t s1 stamp c (if c = 0x30 then 4 else 3) seg
        (offsetOf (s1.gr n t ga) imm) (s1.wordAddr n t) (longWord e.code gd ga (seg * 4096 + imm.toNat))))
    ∧ (∀ e ∈ storeRows, Begins s n t stamp (longWord e.code gd ga (seg * 4096 + imm.toNat)) s1 →
      s1.dataFailure n seg (offsetOf (s1.gr n t ga) imm) e.op false true false = some c →
      NextWith (exec (e.cmd n t ⟨gd, ga, seg, imm.toNat⟩) s) (Traps n t s1 stamp c (if c = 0x30 then 4 else 3) seg
        (offsetOf (s1.gr n t ga) imm) (s1.wordAddr n t) (longWord e.code gd ga (seg * 4096 + imm.toNat))))
    ∧ ∀ e ∈ atomicRows, Begins s n t stamp (longWord e.code gd ga (seg * 4096 + imm.toNat)) s1 →
      s1.dataFailure n seg (offsetOf (s1.gr n t ga) imm) 4 true true true = some c →
      NextWith (exec (e.cmd n t ⟨gd, ga, seg, imm.toNat⟩) s) (Traps n t s1 stamp c (if c = 0x30 then 4 else 3) seg
        (offsetOf (s1.gr n t ga) imm) (s1.wordAddr n t) (longWord e.code gd ga (seg * 4096 + imm.toNat))))
  ∧ (∀ (n t stamp k : Nat) (w : Word) (f : FmtY) (s : State), (s.inst n).turnOf (.thread t) = some k → keyStamp k = stamp → s.noCause → s.clean →
    ((s.core n).thread t).waiting = false → (s.core n).eligible t = 0 → t < (s.core n).threads.length →
    ∀ c addr, ((((s.core n).thread t).pc.getLsbD 0 = true ∧ c = 0x13 ∧ addr = ((s.core n).thread t).pc.toNat)
        ∨ (((s.core n).thread t).pc.getLsbD 0 = false ∧ addr = ((s.core n).thread t).pc.toNat / 4 * 4
          ∧ firstFailure (fetchChecks ((s.core n).seg 0) (s.spaceSize n ((s.core n).seg 0).space) addr) = some c)) →
      ∀ cmd ∈ [Instr.nop n t f, .reservedOpcode n t w],
        NextWith (exec cmd s) (Traps n t s stamp c 2 0 addr ((s.core n).thread t).pc 0))

/-- A word that computes in registers, branches or jumps leaves every other register and every byte of memory alone, where no effect of
fixed place waits (R301, R315, R326). -/
def Obligations.RegisterWordsFrame : Prop :=
  ∀ (n t stamp w : Nat) (s s1 : State), Begins s n t stamp w s1 → (s1.core n).micro = [] →
    (∀ e ∈ aluTwoRows ++ aluCrcRows, isAlu e.code (fmtR w) w = true → NextWith (exec (e.cmd n t (fmtR w)) s) (OnlyThreads n s1))
    ∧ (∀ e ∈ aluOneRows ++ aluBitRows, isAlu e.code (fmtR w) w = true → NextWith (exec (e.cmd n t (fmtR w)) s) (OnlyThreads n s1))
    ∧ (∀ e ∈ divisionRows, isAlu e.code (fmtR w) w = true → NextWith (exec (e.cmd n t (fmtR w)) s) (OnlyThreads n s1))
    ∧ (∀ e ∈ immRows, isImm e.code (fmtI w) w = true → NextWith (exec (e.cmd n t (fmtI w)) s) (OnlyThreads n s1))
    ∧ (∀ e ∈ shiftRows, isImm e.code (fmtI w) w = true → NextWith (exec (e.cmd n t (fmtI w)) s) (OnlyThreads n s1))
    ∧ (isLui (fmtU w) w = true → NextWith (exec (.lui n t (fmtU w)) s) (OnlyThreads n s1))
    ∧ (isSel (fmtSel w) w = true → NextWith (exec (.sel n t (fmtSel w)) s) (OnlyThreads n s1))
    ∧ (isBr 0x20 (fmtB w) w = true → NextWith (exec (.bz n t (fmtB w)) s) (OnlyThreads n s1))
    ∧ (isBr 0x21 (fmtB w) w = true → NextWith (exec (.bnz n t (fmtB w)) s) (OnlyThreads n s1))
    ∧ (isBr 0x22 (fmtB w) w = true → NextWith (exec (.dbnz n t (fmtB w)) s) (OnlyThreads n s1))
    ∧ (isJmp 0x24 (fmtJ w) w = true → NextWith (exec (.j n t (fmtJ w)) s) (OnlyThreads n s1))
    ∧ (isJmp 0x25 (fmtJ w) w = true → NextWith (exec (.call n t (fmtJ w)) s) (OnlyThreads n s1))
    ∧ (isImm 0x26 (fmtI w) w = true → NextWith (exec (.jalr n t (fmtI w)) s) (OnlyThreads n s1))

/-- A fetch that gives a word changes no thread, no other instance and no cause: it may only correct a bit of memory and count it
(R325, R406, R417). -/
def Obligations.FetchLeavesThreads : Prop :=
  ∀ (n t stamp w : Nat) (s s1 : State), ((s.core n).seg 0).space ≠ 4 → s.fetch n t stamp = .ok w s1 →
    (s1.core n).threads = (s.core n).threads ∧ (∀ m, m ≠ n → s1.inst m = s.inst m) ∧ s1.pool = s.pool ∧ s1.hbm = s.hbm
      ∧ (s.noCause → s1.noCause)

/-- Interrupt entry and the wake from WAIT (R354, R360): the interrupted state is pushed, IN_TRAP clears, and entry costs 4 vc; a thread
wakes at the place that the order of events gives it. -/
def Obligations.InterruptEntryAndWake : Prop :=
  ∀ (n t k : Nat) (s : State), (s.inst n).turnOf (.thread t) = some k → s.noCause → s.clean → t < (s.core n).threads.length →
    (((s.core n).thread t).waiting = false → (s.core n).eligible t ≠ 0 →
      NextWith (exec (.interruptEntry n t) s) (ThreadLeft n t s
        { (s.core n).thread t with
          stack := ⟨((s.core n).thread t).pc, ((s.core n).thread t).inTrap, ((s.core n).thread t).level⟩ :: ((s.core n).thread t).stack
          inTrap := false, level := (s.core n).eligible t
          pc := BitVec.ofNat 32 (((s.core n).reg O.INST_TVEC).toNat / 256 * 256 + 4 * (16 + (s.core n).eligible t))
          pos := ((s.core n).thread t).pos + 4 }))
    ∧ (((s.core n).thread t).waiting = true →
      NextWith (exec (.waitWake n t) s) (ThreadLeft n t s { (s.core n).thread t with waiting := false, pos := keyStamp k }))

/-- A window row that a program makes is its LW or SW of that register: the row is thread t's next word (R322, R337, R341, R351, R356,
R357, R366, R369, R375, R91, R92, R187, R215, R382, R281, R298).
That such a row is the thread's next word rests on log entry 24. -/
def Obligations.ProgramPathRowsAreWords : Prop :=
  ∀ (n t : Nat) (v : Word) (f : FmtM) (s : State),
    (∀ e ∈ [(Instr.threadRunWrite (.prog t) n v, O.INST_THREAD_CTRL), (.icuEoi (.prog t) n v, O.ICU_EOI), (.evtSw (.prog t) n v, O.EVT_SW),
        (.vidTimingWrite (.prog t) n v, O.VID_TIMING), (.cmpCommit (.prog t) n v, O.CMP_COMMIT),
        (.bltSubmit (.prog t) n v, O.BLT_SUBMIT)],
      s.nextAccess n t e.2 (some v) = some f → exec e.1 s = exec (.sw n t f) s)
    ∧ (∀ x off : Nat, x < 4 → off < 256 → off % 4 = 0 → s.nextAccess n t (0x400 + 0x100 * x + off) (some v) = some f →
      exec (.instTRegisterWrite (.prog t) n x off v) s = exec (.sw n t f) s)
    ∧ (∀ j : Nat, j < 64 → s.nextAccess n t (O.ICU_SRC_CFG + 4 * j) (some v) = some f →
      exec (.icuSrcCfgWrite (.prog t) n j v) s = exec (.sw n t f) s)
    ∧ (∀ j : Nat, j < 4 → s.nextAccess n t (O.TIM_CTRL + 32 * j) (some v) = some f →
      exec (.timCtrlWrite (.prog t) n j v) s = exec (.sw n t f) s)
    ∧ (∀ j : Nat, j < 4 → s.nextAccess n t (O.DMA_CTRL + 32 * j) (some v) = some f →
      exec (.dmaStart (.prog t) n j v) s = exec (.sw n t f) s)
    ∧ (∀ j : Nat, j < 16 → s.nextAccess n t (O.AUD_V_CTRL + 64 * j) (some v) = some f →
      exec (.audRestart (.prog t) n j v) s = exec (.sw n t f) s)
    ∧ (∀ e ∈ [(Instr.icuClaim n t, O.ICU_CLAIM), (.vidVcLoRead (.prog t) n, O.VID_VC_LO), (.audSampleLoRead (.prog t) n, O.AUD_SAMPLE_LO)],
      s.nextAccess n t e.2 none = some f → exec e.1 s = exec (.lw n t f) s)
    ∧ ∀ j : Nat, j < 4 → s.nextAccess n t (O.TIM_CAPT + 32 * j) none = some f →
      exec (.timCaptRead (.prog t) n j) s = exec (.lw n t f) s

/-- A load of ICU_CLAIM takes, of the sources that target the thread, are pending and are not in service, and within a handler do not
exceed its level, the one of highest level and among equals of lowest number; 0 where there is none (R356). -/
def Obligations.ClaimTakesHighestLevel : Prop :=
  ∀ (n t stamp w : Nat) (f : FmtM) (s s1 : State), Begins s n t stamp w s1 → s.nextAccess n t O.ICU_CLAIM none = some f →
    ((s.core n).thread t).pos = stamp → ((s.core n).seg 0).space ≠ 4 → (s1.core n).micro = [] →
    let c := s1.core n
    let x := c.thread t
    let ok (k : Nat) : Prop := k < 64 ∧ c.srcTargets k t = true ∧ c.srcPending k = true ∧ (∀ y ∈ c.claims, y.src ≠ k)
      ∧ (x.stack = [] ∨ c.srcLevel k ≤ x.level)
    (∀ k, ok k → (∀ j, ok j → c.srcLevel j < c.srcLevel k ∨ (c.srcLevel j = c.srcLevel k ∧ k ≤ j)) →
      NextWith (exec (.icuClaim n t) s) fun u =>
        (u.core n).claims = ⟨k, t, x.stack.length⟩ :: c.claims ∧ u.gr n t f.gd = if f.gd = 0 then 0 else BitVec.ofNat 32 (2 ^ 31 + k))
    ∧ ((∀ k, ¬ ok k) → NextWith (exec (.icuClaim n t) s) fun u => (u.core n).claims = c.claims ∧ u.gr n t f.gd = 0)

/-- A host write of the window of a Playing instance waits for the next frame boundary and changes nothing else (R105, R340); a write of
a thread's registers is ignored then (R341).
How held writes land rests on log entry 57. -/
def Obligations.HostWritesWaitForTheBoundary : Prop :=
  ∀ (p : Path) (n : Nat) (v : Word) (s : State), HostReaches s p n → (s.inst n).rung = .playing → s.noCause →
    (∀ e ∈ [(Instr.threadRunWrite p n v, O.INST_THREAD_CTRL), (.icuEoi p n v, O.ICU_EOI), (.evtSw p n v, O.EVT_SW),
        (.vidTimingWrite p n v, O.VID_TIMING), (.cmpCommit p n v, O.CMP_COMMIT), (.bltSubmit p n v, O.BLT_SUBMIT)]
        ++ (List.range 64).map (fun j => (.icuSrcCfgWrite p n j v, O.ICU_SRC_CFG + 4 * j))
        ++ (List.range 4).map (fun j => (.timCtrlWrite p n j v, O.TIM_CTRL + 32 * j))
        ++ (List.range 4).map (fun j => (.dmaStart p n j v, O.DMA_CTRL + 32 * j))
        ++ (List.range 16).map (fun j => (.audRestart p n j v, O.AUD_V_CTRL + 64 * j)),
      NextWith (exec e.1 s) fun u => OnlyInstance n s u ∧ u.answer = some .done
        ∧ u.inst n = { s.inst n with hostHeld := (s.inst n).hostHeld ++ [⟨e.2, v⟩] })
    ∧ ∀ t off : Nat, t < 4 → off < 256 → off % 4 = 0 →
      NextWith (exec (.instTRegisterWrite p n t off v) s) fun u => OnlyInstance n s u ∧ u.inst n = s.inst n

/-- A host write of a Held instance's RUN bits and thread registers (R337, R340, R341, R345, R361). -/
def Obligations.HostWritesThreads : Prop :=
  ∀ (p : Path) (n : Nat) (v : Word) (s : State), HostReaches s p n → (s.inst n).rung = .held → s.noCause →
    NextWith (exec (.threadRunWrite p n v) s) (fun u => OnlyInstance n s u
      ∧ ∀ t, t < (s.inst n).adm.slots → t < (s.core n).threads.length →
        (u.core n).thread t =
          let x := (s.core n).thread t
          if v.getLsbD t = x.run then x
          else if v.getLsbD t then
            { x with run := true, waiting := false, inTrap := false, stack := [], level := 0
                     pc := BitVec.ofNat 32 (((s.core n).reg (O.INST_START_PC + 4 * t)).toNat / 4 * 4), pos := (s.inst n).hostPos + 1 }
          else { x with run := false })
    ∧ ∀ t : Nat, t < (s.inst n).adm.slots → t < 4 → t < (s.core n).threads.length →
      ∀ e ∈ ([(0x00, fun x => { x with pc := v &&& 0xFFFFFFFE }), (0x08, fun x => { x with epc := v &&& 0xFFFFFFFE }),
          (0x18, fun x => { x with scratch0 := v }), (0x1C, fun x => { x with scratch1 := v }), (0x04, fun x => x), (0x0C, fun x => x),
          (0x10, fun x => x), (0x14, fun x => x)] : List (Nat × (Thread → Thread)))
          ++ (List.range 32).map (fun k => (0x80 + 4 * k, fun (x : Thread) => x.setG k v)),
        NextWith (exec (.instTRegisterWrite p n t e.1 v) s) fun u => OnlyInstance n s u
          ∧ (u.core n).thread t = e.2 ((s.core n).thread t)
          ∧ ∀ y, y ≠ t → (u.core n).thread y = (s.core n).thread y

/-- A host write of a Held instance's interrupt, timer, event, video and compositor commands (R92, R187, R349, R351, R357, R366, R375,
R340). -/
def Obligations.HostWritesControllers : Prop :=
  ∀ (p : Path) (n : Nat) (v : Word) (s : State), HostReaches s p n → (s.inst n).rung = .held → s.noCause →
    let c := s.core n
    let w := v.toNat
    NextWith (exec (.icuEoi p n v) s) (fun u => OnlyWindow n s u
      ∧ (u.core n).claims = c.claims.filter fun x => x.src != w % 64)
    ∧ (∀ j : Nat, j < 64 → NextWith (exec (.icuSrcCfgWrite p n j v) s) fun u => OnlyWindow n s u
      ∧ (u.core n).srcLevel j = w % 8 ∧ (u.core n).srcSense j = (if w / 16 % 4 = 3 then 0 else w / 16 % 4)
      ∧ (∀ t < 4, (u.core n).srcTargets j t = (decide (t < (s.inst n).adm.slots) && tb w (8 + t)))
      ∧ (u.core n).claims = if w % 8 = 0 then c.claims.filter (fun x => x.src != j) else c.claims)
    ∧ (∀ j : Nat, j < 4 → NextWith (exec (.timCtrlWrite p n j v) s) fun u => OnlyWindow n s u
      ∧ bits ((u.core n).timCtrl j) 31 16 = w / 65536 ∧ bits ((u.core n).timCtrl j) 5 4 = (if 2 ≤ w / 16 % 4 then 0 else w / 16 % 4)
      ∧ bits ((u.core n).timCtrl j) 3 2 = (if w / 4 % 4 = 3 then 0 else w / 4 % 4) ∧ bits ((u.core n).timCtrl j) 0 0 = w % 2
      ∧ (u.core n).timNext =
          if bits (c.timCtrl j) 0 0 = w % 2 ∧ bits (c.timCtrl j) 31 16 = w / 65536
              ∧ bits (c.timCtrl j) 5 4 = (if 2 ≤ w / 16 % 4 then 0 else w / 16 % 4) then c.timNext
          else c.timNext.set j
            (if w % 2 = 1 ∧ w / 16 % 4 ≠ 1 then some ((s.inst n).hostPos + w / 65536 + 1) else none))
    ∧ NextWith (exec (.evtSw p n v) s) (fun u => OnlyWindow n s u
      ∧ (u.core n).pulses = c.pulses ++ ((List.range 4).filter (tb w)).map fun k => ⟨(s.inst n).hostPos + 1, 40 + k, none⟩)
    ∧ NextWith (exec (.vidTimingWrite p n v) s) (fun u => OnlyWindow n s u
      ∧ (u.core n).reg O.VID_TIMING =
        let top := match (s.inst n).adm.cls with | 0 => (60, 20) | 1 => (90, 40) | _ => (135, 60)
        BitVec.ofNat 32 (max 32 (min top.1 (w / 65536 % 256)) * 65536 + max 8 (min top.2 (w % 64))))
    ∧ NextWith (exec (.cmpCommit p n v) s) fun u => OnlyWindow n s u ∧ (u.core n).commit = (c.commit || tb w 0)

/-- A host write of a Held instance's engine commands (R215, R230, R281, R340, R382): a job joins the blit queue and waits for its credit, a transfer starts or is
ignored, and a voice is keyed on. -/
def Obligations.HostWritesEngines : Prop :=
  ∀ (p : Path) (n : Nat) (v : Word) (s : State), HostReaches s p n → (s.inst n).rung = .held → s.noCause →
    let c := s.core n
    let w := v.toNat
    NextWith (exec (.bltSubmit p n v) s) (fun u => OnlyWindow n { s with eng := { s.eng with blitWait := u.eng.blitWait } } u
      ∧ u.eng.blitWait = s.eng.blitWait ++ ((u.core n).blits.filter fun j =>
          j.phase == .waiting && !s.eng.blitWait.contains (n, j.seq)).map (fun j => (n, j.seq))
      ∧ if tb w 0 then ∃ j : BlitJob, (u.core n).blits = c.blits ++ [j] ∧ j.stamp = (s.inst n).hostPos ∧ j.phase = .waiting
          ∧ j.seq = (wbits (c.reg O.BLT_SUBMIT_SEQ) 15 0 + 1) % 65536 ∧ (u.core n).reg O.BLT_SUBMIT_SEQ = BitVec.ofNat 32 j.seq
        else (u.core n).blits = c.blits)
    ∧ (∀ j : Nat, j < 4 → j < c.dma.length → tb w 0 = true → NextWith (exec (.dmaStart p n j v) s) fun u => OnlyWindow n s u
      ∧ (if (c.dma.getD j {}).active then
          (u.core n).dma = c.dma ∧ tb ((u.core n).reg (O.DMA_STATUS + 32 * j)).toNat 3 = true
            ∧ (u.core n).reg (O.DMA_CTRL + 32 * j) = c.reg (O.DMA_CTRL + 32 * j)
        else (u.core n).dma.getD j {} =
          { active := true, start := (s.inst n).hostPos, prio := w / 16 % 4, srcSeg := w / 256 % 8, dstSeg := w / 4096 % 8
            count := (c.reg (O.DMA_COUNT + 32 * j)).toNat % 2 ^ 25, src := (c.reg (O.DMA_SRC + 32 * j)).toNat
            dst := (c.reg (O.DMA_DST + 32 * j)).toNat }))
    ∧ ∀ j : Nat, j < 16 → j < c.mix.voices.length → tb w 30 = true → NextWith (exec (.audRestart p n j v) s) fun u => OnlyWindow n s u
      ∧ ((u.core n).mix.voices.getD j {}).restart = true ∧ tb ((u.core n).reg (O.AUD_V_CTRL + 64 * j)).toNat 31 = true

/-- Host reads of the clocks and captures of a window (R13, R91, R298, R340, R369, R580): the low half is answered and the high half held
for the host; a host read of a capture changes nothing.
What a host read leaves alone rests on log entry 25. -/
def Obligations.HostReadsClocks : Prop :=
  ∀ (p : Path) (n : Nat) (s : State), HostReaches s p n → s.noCause →
    NextWith (exec (.vidVcLoRead p n) s) (fun u => OnlyInstance n s u ∧ u.answer = some (.data ((s.inst n).hostPos % 2 ^ 32))
      ∧ u.inst n = { s.inst n with vcHi := BitVec.ofNat 32 ((s.inst n).hostPos / 2 ^ 32) })
    ∧ NextWith (exec (.audSampleLoRead p n) s) (fun u => OnlyInstance n s u
      ∧ u.answer = some (.data ((s.inst n).sampleAt (s.inst n).hostPos % 2 ^ 32))
      ∧ u.inst n = { s.inst n with sampHi := BitVec.ofNat 32 ((s.inst n).sampleAt (s.inst n).hostPos / 2 ^ 32) })
    ∧ ∀ j : Nat, j < 4 → NextWith (exec (.timCaptRead p n j) s) fun u => OnlyInstance n s u
      ∧ u.answer = some (.data ((s.core n).reg (O.TIM_CAPT + 32 * j)).toNat) ∧ u.inst n = s.inst n

/-- A tick of a general timer (R363, R366, R367): the count, DOWN, MATCH, WRAP, the pulses, the next tick, and the end of a ONESHOT. A beam timer fires (R372); a pulse reaches the targets whose routes name its source, 3 vc later with THREE_FLOP; and a delayed pulse
acts, or is lost where the target acted 1 or 2 vc before (R373, R374, R376, R518).
The order within a stamp rests on log entry 53, the distance of delayed pulses on log entry 40. -/
def Obligations.TimersAndPulses : Prop :=
  (∀ (n i k : Nat) (s : State), (s.inst n).turnOf (.tick i) = some k → s.noCause → (s.core n).micro = [] →
    let c := s.core n
    let ctrl := (c.reg (O.TIM_CTRL + 32 * i)).toNat
    let old := (c.reg (O.TIM_COUNT + 32 * i)).toNat
    let cmp := (c.reg (O.TIM_CMP + 32 * i)).toNat
    let st := (c.reg (O.TIM_STATUS + 32 * i)).toNat
    let r := tickResult (ctrl / 4 % 4) (c.reg (O.TIM_TOP + 32 * i)).toNat old (tb st 4)
    let matched := (r.1 == cmp && old != cmp && decide (cmp ≤ (c.reg (O.TIM_TOP + 32 * i)).toNat)) || (r.2.2 && cmp == 0)
    NextWith (exec (.timerTick n i) s) fun u => OnlyWindow n s u
      ∧ (u.core n).reg (O.TIM_COUNT + 32 * i) = BitVec.ofNat 32 r.1
      ∧ (let v := ((u.core n).reg (O.TIM_STATUS + 32 * i)).toNat
         tb v 0 = (tb st 0 || matched) ∧ tb v 1 = (tb st 1 || r.2.2) ∧ tb v 2 = tb st 2 ∧ tb v 3 = tb st 3 ∧ tb v 4 = r.2.1)
      ∧ (u.core n).pulses = c.pulses ++ (if matched then [⟨keyStamp k + 1, 1 + i, none⟩] else [])
          ++ (if r.2.2 then [⟨keyStamp k + 1, 5 + i, none⟩] else [])
      ∧ (u.core n).timNext = c.timNext.set i
          (if r.2.2 = true ∧ ctrl / 4 % 4 = 2 then none else some (keyStamp k + ctrl / 65536 + 1))
      ∧ tb ((u.core n).reg (O.TIM_CTRL + 32 * i)).toNat 0 = (tb ctrl 0 && !(r.2.2 && ctrl / 4 % 4 == 2))
      ∧ ∀ o, o ∉ [O.TIM_COUNT + 32 * i, O.TIM_STATUS + 32 * i, O.TIM_CTRL + 32 * i] → (u.core n).reg o = c.reg o)
  ∧ (∀ (n i k : Nat) (s : State), s.noCause →
    let c := s.core n
    let t := keyStamp k
    ((s.inst n).turnOf (.btim i) = some k → c.micro = [] → NextWith (exec (.beamTimerFire n i) s) fun u => OnlyWindow n s u
      ∧ tb ((u.core n).reg O.BTIM_STATUS).toNat i = true ∧ tb ((u.core n).reg (O.BTIM_CTRL + 8 * i)).toNat 0 = false
      ∧ (u.core n).pulses = c.pulses ++ [⟨t + 1, 9 + i, none⟩])
    ∧ ((s.inst n).turnOf (.pulse i none) = some k →
      let routes := (List.range 33).filter fun j => (c.reg (O.EVT_ROUTE + 4 * j)).toNat % 64 = i
      let left := c.pulses.filter fun p => p != ⟨t, i, none⟩
      (tb (s.pf (O.CDC_INST_MODE + 4 * n)).toNat 0 = true → c.micro = [] →
        NextWith (exec (.eventPulse n i) s) fun u => OnlyWindow n s u
          ∧ (u.core n).pulses = left ++ routes.map fun j => ⟨t + 3, i, some j⟩)
      ∧ (tb (s.pf (O.CDC_INST_MODE + 4 * n)).toNat 0 = false →
        exec (.eventPulse n i) s = .next (State.afterEvent (s.modCore n fun c =>
          routes.foldl (fun c j => c.addMicro (keyOf t 2 (1 + j)) (.act j)) { c with pulses := left }) n k)))
    ∧ ∀ src, (s.inst n).turn = some (k, .pulse src (some i)) → c.micro = [] →
      let last := c.lastAct.get zeroAt i
      let left := c.pulses.filter fun p => !(p.stamp == t && p.act == some i)
      (0 < last ∧ last < t ∧ t ≤ last + 2 → NextWith (exec (.threeFlopPulseAction n i) s) fun u =>
        (u.core n).pulses = left ∧ (u.core n).lastAct = c.lastAct ∧ (u.core n).regs = c.regs
          ∧ (u.pf (O.CDC_INST_MODE + 4 * n)).toNat / 65536 = min 65535 ((s.pf (O.CDC_INST_MODE + 4 * n)).toNat / 65536 + 1))
      ∧ (¬ (0 < last ∧ last < t ∧ t ≤ last + 2) → i < 4 ∨ (8 ≤ i ∧ i ≠ 16) → NextWith (exec (.threeFlopPulseAction n i) s) fun u =>
        OnlyInstance n s u ∧ (u.core n).lastAct.get zeroAt i = t
          ∧ (8 ≤ i → i < 12 → (u.core n).reg (O.TIM_COUNT + 32 * (i - 8)) = 0
            ∧ tb ((u.core n).reg (O.TIM_CTRL + 32 * (i - 8))).toNat 0 = true ∧ (u.core n).pulses = left)
          ∧ (12 ≤ i → i < 16 → i - 12 < c.dma.length → (c.dma.getD (i - 12) {}).active = false →
            ((u.core n).dma.getD (i - 12) {}).active = true ∧ ((u.core n).dma.getD (i - 12) {}).start = t)))

/-- The checks of a DMA transfer (R363, R381 to R383): before the program accesses of s + 2 a transfer ends that COUNT 0 or a failed check
leaves without a write; COUNT 0 ends OK; the first check that fails, of the source and then of the destination,
ends it; else the segments are fixed. The end sends its pulse (R388, R389). A DMA beat reads (R384, R386): the bytes join the beats held for its write stamp u + d, and the pipe is free then.
When each check is made rests on log entry 48. -/
def Obligations.DmaTransfers : Prop :=
  (∀ (n i k : Nat) (s : State), (s.inst n).turnOf (.dmaCheck i) = some k → s.noCause → (s.core n).micro = [] →
    let c := s.core n
    let x := c.dma.getD i {}
    let sg := c.seg x.srcSeg
    let dg := c.seg x.dstSeg
    let bad := firstFailure (sideChecks sg (s.spaceSize n sg.space) 0 x.src x.count)
    let bad' := firstFailure (sideChecks dg (s.spaceSize n dg.space) 1 x.dst x.count)
    NextWith (exec (.dmaCheck n i) s) fun u => OnlyWindow n s u
      ∧ (x.count = 0 → ((u.core n).dma.getD i {}).active = false ∧ bits ((u.core n).reg (O.DMA_STATUS + 32 * i)).toNat 11 8 = 0
        ∧ (u.core n).pulses = c.pulses ++ [⟨x.start + 2, 13 + i, none⟩])
      ∧ (x.count ≠ 0 → ∀ r side, (bad = some r ∧ side = 0 ∨ bad = none ∧ bad' = some r ∧ side = 1) →
        ((u.core n).dma.getD i {}).active = false ∧ (u.core n).pulses = c.pulses ++ [⟨x.start + 2, 17 + i, none⟩]
        ∧ (let v := ((u.core n).reg (O.DMA_STATUS + 32 * i)).toNat
           bits v 11 8 = r ∧ bits v 4 4 = side ∧ tb v 1 = true)
        ∧ (r ∈ [1, 2, 5] → (u.core n).reg (O.DMA_ERR_ADDR + 32 * i) = BitVec.ofNat 32 (if side = 0 then x.src else x.dst)))
      ∧ (x.count ≠ 0 → bad = none → bad' = none → (u.core n).dma = c.dma.set i { x with checked := true, sv := sg, dv := dg }
        ∧ (u.core n).pulses = c.pulses ∧ (u.core n).regs = c.regs))
  ∧ (∀ (n k j : Nat) (data : List Byte) (s s1 : State), (s.inst n).turnOf .dmaRead = some k → s1.noCause → s1.clean → (s.core n).dmaPick = some j →
    let c := s.core n
    let x := c.dma.getD j {}
    let len := min 64 (x.count - 64 * x.next)
    let d := (len + 31) / 32
    let to' := x.dv.base * 1024 + x.dst + 64 * x.next
    (c.beats.filter fun b => b.dma && b.unit == j).length < 16 → s.wrBlocked n x.dv.space to' len = (none, none) →
    s.rdEngine n (keyStamp k) x.sv.space (x.sv.base * 1024 + x.src + 64 * x.next) len = .ok data s1 →
    ∃ v : State, exec (.dmaBeat n) s = .next (State.afterEvent v n k) ∧ (v.core n).pipeFree = keyStamp k + d
      ∧ (v.core n).pipeLast = some j ∧ (v.core n).beats = (s1.core n).beats ++ [⟨keyStamp k + d, true, j, x.dv.space, [(to', data)]⟩]
      ∧ (∀ m, m ≠ n → v.inst m = s1.inst m) ∧ v.pool = s1.pool ∧ v.hbm = s1.hbm)
  ∧ (∀ (n i st : Nat) (s : State), ((s.core n).dma.getD i {}).active = true → ((s.core n).dma.getD i {}).checked = false →
    ((s.core n).dma.getD i {}).start + 2 = st →
    (((s.core n).dma.getD i {}).count = 0 → i < (s.core n).dma.length →
      (((s.dmaPre n i st).core n).dma.getD i {}).active = false ∧ ((s.dmaPre n i st).core n).pulses = (s.core n).pulses ++ [⟨st, 13 + i, none⟩])
    ∧ ((s.dmaVerdict n ((s.core n).dma.getD i {})) = none → s.dmaPre n i st = s))

/-- Held writes land: a beat whole, into VRAM or work RAM (R104, R386), and the journal's head entry, into VRAM or its register (R98).
A beat lost with its leaf rests on log entry 36. -/
def Obligations.WritesLand : Prop :=
  (∀ (n k a : Nat) (b : Beat) (d : List Byte) (s : State), (s.inst n).turnOf .beat = some k → s.noCause → s.clean → (s.core n).micro = [] →
    (s.core n).nextBeat = some b → b.data = [(a, d)] → (s.inst n).beatFree b.stamp = true →
    (b.space = 3 → NextWith (exec (.engineBeatLand n) s) fun u => (u.core n).beats = (s.core n).beats.erase b ∧ u.hbm = s.hbm
      ∧ ∀ x, u.pool.get zeroByte x = if s.vramAt n a ≤ x ∧ x < s.vramAt n a + d.length then d.getD (x - s.vramAt n a) 0
          else s.pool.get zeroByte x)
    ∧ (b.space = 2 → NextWith (exec (.engineBeatLand n) s) fun u => (u.core n).beats = (s.core n).beats.erase b ∧ u.pool = s.pool
      ∧ ∀ x, u.hbm.get zeroByte x = if (s.inst n).adm.workB + a ≤ x ∧ x < (s.inst n).adm.workB + a + d.length
          then d.getD (x - ((s.inst n).adm.workB + a)) 0 else s.hbm.get zeroByte x))
  ∧ ∀ (n : Nat) (e : JournalEntry) (r : List JournalEntry) (d : List Byte) (s : State), (s.inst n).journal = e :: r →
    (s.inst n).headFree = true → s.noCause → s.clean → (s.core n).micro = [] → e.data = d.map some →
    (e.isReg = false → NextWith (exec (.journalRetire n) s) fun u => (u.inst n).journal = r ∧ u.hbm = s.hbm
      ∧ ∀ x, u.pool.get zeroByte x = if s.vramAt n e.addr ≤ x ∧ x < s.vramAt n e.addr + d.length
          then d.getD (x - s.vramAt n e.addr) 0 else s.pool.get zeroByte x)
    ∧ (e.isReg = true → d.length = 4 → NextWith (exec (.journalRetire n) s) fun u => (u.inst n).journal = r ∧ u.pool = s.pool
      ∧ (u.core n).reg e.addr = BitVec.ofNat 32 (leNat d) ∧ ∀ o, o ≠ e.addr → (u.core n).reg o = (s.core n).reg o)

/-- A sample of the mixer (R277, R284, R289 to R292, R296): it leaves the mixer as `mixOut` gives it, the next sample is the following
one, the envelopes and keys show in the voices' registers and the events in AUD_STATUS, and a catch-up takes no audio; no thread
changes, and no other instance. -/
def Obligations.AudioSampleAdvances : Prop :=
  ∀ (n k : Nat) (s : State), (s.inst n).turnOf .sample = some k → s.noCause → s.clean → s.mem.hbmCe = [] →
    let out := s.mixOut n (keyStamp k)
    ∃ v : State, exec (.audioSample n) s = .next (State.afterEvent v n k)
      ∧ (v.core n).mix = out.st ∧ (v.core n).mix.next = (s.core n).mix.next + 1
      ∧ (∀ x < 16, (v.core n).reg (O.AUD_V_CTRL + 64 * x + 12) = BitVec.ofNat 32 (out.envs.getD x 0)
        ∧ ((v.core n).reg (O.AUD_V_CTRL + 64 * x)).getLsbD 31 = out.keys.getD x false)
      ∧ (v.core n).reg O.AUD_STATUS = (s.core n).reg O.AUD_STATUS ||| BitVec.ofNat 32 (out.ended * 65536 + out.status)
      ∧ ((s.inst n).catchUp.isSome = true → (v.inst n).preAudio = (s.inst n).preAudio ∧ (v.inst n).builds = (s.inst n).builds)
      ∧ ((s.inst n).catchUp = none → (∀ b ∈ (s.inst n).builds, b.frame ≠ keyStamp k / (s.inst n).frameVc) →
        (v.inst n).preAudio = (s.inst n).preAudio ++ [out.main])
      ∧ (v.core n).threads = (s.core n).threads ∧ (∀ m, m ≠ n → v.inst m = s.inst m) ∧ v.pool = s.pool

/-- The next blit job is checked at S (R221, R225): it ends with the result of the checks, ends at once where it has no pixel, or runs. A blit beat reads (R219, R231): its pixels are held for the next vc, and the job goes on to its next beat.
When each check is made rests on log entry 48. -/
def Obligations.BlitJobs : Prop :=
  (∀ (n k : Nat) (j : BlitJob) (r : List BlitJob) (s : State), (s.inst n).turnOf .blitStart = some k → s.noCause → s.clean →
    (s.core n).blits = j :: r →
    let c := s.core n
    let e := max (j.stamp + 2) c.blitEnd
    let g := c.seg (bits j.desc.scratch 2 0)
    let res := j.desc.check (s.quota n) (s.scratchOk n j.desc g)
    ∃ v : State, exec (.blitJobStart n) s = .next (State.afterEvent v n k) ∧ OnlyWindow n s v
      ∧ (res ≠ 0 → (v.core n).blits = r ∧ (v.core n).blitEnd = e ∧ tb ((v.core n).reg O.BLT_STATUS).toNat 1 = true
        ∧ bits ((v.core n).reg O.BLT_STATUS).toNat 11 8 = res % 16
        ∧ bits ((v.core n).reg O.BLT_STATUS).toNat 31 16 = (bits (c.reg O.BLT_STATUS).toNat 31 16 + 1) % 65536)
      ∧ (res = 0 → j.desc.n = 0 → (v.core n).blits = r ∧ (v.core n).pulses = c.pulses ++ [⟨e, 21, none⟩]
        ∧ bits ((v.core n).reg O.BLT_STATUS).toNat 31 16 = (bits (c.reg O.BLT_STATUS).toNat 31 16 + 1) % 65536)
      ∧ (res = 0 → j.desc.n ≠ 0 →
        (v.core n).blits = { j with start := e, checked := true, scr := g, next := 0 } :: r ∧ (v.core n).regs = c.regs))
  ∧ (∀ (n k : Nat) (j : BlitJob) (r : List BlitJob) (d : List Byte) (out : List (Nat × List Byte)) (s s1 : State),
    (s.inst n).turnOf .blitRead = some k → s1.noCause → s1.clean → (s.core n).blits = j :: r → j.phase = .running →
    (s.core n).beats.countP (fun b => !b.dma) < 64 →
    let sp := match j.pixels with | (_, t, _) :: _ => t | [] => 3
    (j.pixels.findSome? fun p => (s.wrBlocked n sp p.2.2 j.desc.b).1) = none →
    s.readPixels n (keyStamp k) j.desc.b j.desc.fill j.pixels [] = (.ok d s1, out) → (s1.core n).blits = j :: r →
    ∃ v : State, exec (.blitBeat n) s = .next (State.afterEvent v n k)
      ∧ (v.core n).blits = { j with next := j.next + 1 } :: r
      ∧ (v.core n).beats = (s1.core n).beats ++ [⟨keyStamp k + 1, false, j.seq, sp, out⟩]
      ∧ (∀ m, m ≠ n → v.inst m = s1.inst m) ∧ v.pool = s1.pool ∧ v.hbm = s1.hbm)

/-- The shared blit queue (R31, R230, R231, R582): a submitted job enters it with a credit, under the port's in order of age, a free engine takes the oldest job that may run, an
engine that holds 64 beats sets its job aside, and a job set aside resumes once its beats have landed.
The sharing of credits and the choice among jobs rest on log entry 39. -/
def Obligations.BlitEnginesTakeJobs : Prop :=
  (∀ (n : Nat) (j : BlitJob) (s : State), s.noCause → ((s.core n).blits.find? fun j => j.phase == .waiting) = some j →
    (let q := s.blitQueue
     let own := (s.blitCredits n).2
     (q.filter fun e => ((s.core e.1).blits.any fun j => j.seq == e.2 && j.ownCred == own) && (!own || e.1 == n)).length
        < (s.blitCredits n).1 ∧ q.length < 32) →
    ((s.blitCredits n).2 = true ∨ s.portNext = some (n, j.seq)) →
    NextWith (exec (.blitJobCreditWait n) s) fun u => u.eng = { s.eng with
          blitQ := s.blitQueue ++ [(n, j.seq)], blitWait := s.eng.blitWait.filter (· != (n, j.seq)) }
      ∧ u.inst n = { s.inst n with core := { s.core n with
          blits := (s.core n).blits.map fun x => if x.seq = j.seq then { x with phase := .queued, ownCred := (s.blitCredits n).2 } else x } }
      ∧ ∀ m, m ≠ n → u.inst m = s.inst m)
  ∧ (∀ (k n q : Nat) (s : State), s.noCause →
    (s.blitQueue.find? fun q => ((s.core q.1).blits.head?.map (·.seq)) == some q.2) = some (n, q) → s.engineFree k = true →
    NextWith (exec (.blitJobTake k) s) fun u => u.eng.blit = (k, (n, q)) :: s.eng.blit.filter (fun e => e.1 != k)
      ∧ u.eng.blitQ = s.blitQueue.filter (· != (n, q))
      ∧ (u.core n).blits = (s.core n).blits.map (fun j => if j.seq = q then { j with phase := .running } else j)
      ∧ ∀ m, m ≠ n → u.inst m = s.inst m)
  ∧ (∀ (k n q : Nat) (s : State), s.noCause → s.engineJob k = some (n, q) → 64 ≤ (s.core n).beats.countP (fun b => !b.dma) →
    NextWith (exec (.blitSetAside k) s) fun u => u.eng = { s.eng with blit := s.eng.blit.filter fun e => e.1 != k }
      ∧ (u.core n).blits = (s.core n).blits.map (fun j => if j.seq = q then { j with phase := .aside } else j)
      ∧ (u.core n).beats = (s.core n).beats ∧ ∀ m, m ≠ n → u.inst m = s.inst m)
  ∧ ∀ (k n : Nat) (j : BlitJob) (i : Inst) (r : List BlitJob) (l : Map Inst) (s : State), s.noCause → s.insts = (n, i) :: l →
    i.core.blits = j :: r → j.phase = .aside → (∀ b ∈ i.core.beats, b.dma = true) → s.engineFree k = true →
    NextWith (exec (.blitResume k) s) fun u => u.eng.blit = (k, (n, j.seq)) :: s.eng.blit.filter (fun e => e.1 != k)
      ∧ (u.core n).blits = (i.core.blits.map fun x => if x.seq = j.seq then { x with phase := .running } else x)
      ∧ ∀ m, m ≠ n → u.inst m = s.inst m

/-- Frame pacing (R107, R108, R109, R112, R114, R120, R475, R476): a deadline A + (F - F0) periods + SLACK that has passed is noted, and none before; a new pacing mode takes effect at
once, with 0b11 clamped; and a release starts the next frame with the input held for it, or a synthesised one.
That a deadline expires by command rests on log entry 62. -/
def Obligations.FramePacing : Prop :=
  (∀ (n : Nat) (s : State), s.noCause → (s.inst n).runs = true → (s.inst n).catchUp = none → ∀ a, (s.inst n).anchor = some a →
    let d := a.1 + ((s.inst n).released - a.2) * (s.inst n).framePeriod + (s.pf (O.VID_PACE_SLACK + 32 * n)).toNat % 65536 * 4800
    (d ≤ s.wall → NextWith (exec (.pacingDeadlineExpire n) s) fun u => OnlyInstance n s u ∧ u.inst n = { s.inst n with expired := true })
    ∧ (s.wall < d → NextWith (exec (.pacingDeadlineExpire n) s) fun u => OnlyInstance n s u ∧ u.inst n = s.inst n))
  ∧ (∀ (n : Nat) (v : Word) (s : State), s.noCause → n < 512 → s.Direct .pf (.pf (O.VID_PACE_CTRL + 32 * n)) →
    NextWith (exec (.vidPaceReanchor n v) s) fun u => u.answer = some .done
      ∧ (u.pf (O.VID_PACE_CTRL + 32 * n)).toNat % 4 = (if v.toNat % 4 = 3 then 0 else v.toNat % 4)
      ∧ (u.pf O.VID_SCH_CLAMP_COUNT).toNat
          = min (2 ^ 32 - 1) ((s.pf O.VID_SCH_CLAMP_COUNT).toNat + if v.toNat % 4 = 3 then 1 else 0)
      ∧ (u.inst n).reanchor = ((s.inst n).reanchor || v.getLsbD 31) ∧ ∀ m, m ≠ n → u.inst m = s.inst m)
  ∧ ∀ (n : Nat) (s : State), s.noCause → s.clean → n < 512 → s.mayRelease n = true → (s.inst n).catchUp = none → (s.inst n).replay = [] →
    let i := s.inst n
    let f := i.released
    (∀ h, i.held = [h] → h.frame = f → NextWith (exec (.frameRelease n) s) fun u =>
      (u.inst n).released = f + 1 ∧ (u.inst n).relAt = s.wall ∧ (u.inst n).held = [] ∧ (u.inst n).ckptDone = false
      ∧ (u.core n).input = leBytes 8 f ++ leBytes 4 1 ++ (h.data.drop 8).take 4 ++ (h.data.drop 16).take 48
      ∧ (u.core n).timing = i.core.timingIn ∧ u.pf (O.VID_PACE_STATUS + 32 * n) = s.pf (O.VID_PACE_STATUS + 32 * n)
      ∧ ∀ m, m ≠ n → u.inst m = s.inst m)
    ∧ (i.held = [] → NextWith (exec (.frameRelease n) s) fun u =>
      (u.inst n).released = f + 1 ∧ (u.inst n).relAt = s.wall ∧ (u.inst n).expired = false ∧ (u.inst n).ckptDone = false
      ∧ (u.core n).input = leBytes 8 f ++ List.replicate 8 0 ++ (i.core.input.drop 16 ++ List.replicate 48 0).take 48
      ∧ (∀ x < 64, u.hbm.get zeroByte (i.adm.workB + x) = ((u.core n).input).getD x 0)
      ∧ (u.core n).timing = i.core.timingIn
      ∧ (u.pf (O.VID_PACE_STATUS + 32 * n)).toNat / 65536
          = min 65535 ((s.pf (O.VID_PACE_STATUS + 32 * n)).toNat / 65536 + if i.expired then 1 else 0)
      ∧ ∀ m, m ≠ n → u.inst m = s.inst m)

/-- At a frame boundary the host writes of a replay record and those held land in order of arrival, stamped at the boundary, each as the
host's write of a Held instance would, and are logged (R105, R434, R443); then the checkpoint is taken, and the writes interval begins
anew (R433, R437, R438).
The order at a boundary rests on log entry 57. -/
def Obligations.BoundaryWritesAndCheckpoint : Prop :=
  ∀ (n : Nat) (s : State), s.noCause → (s.inst n).atBoundary = true →
    let i := s.inst n
    let c : Ckpt := { frame := i.released, core := i.core, hlog := i.hlog }
    (∀ w l, i.toLand = w :: l → NextWith (exec (.hostWriteLand n) s) fun u =>
      (u.inst n).hostHeld = [] ∧ (u.inst n).hlog = i.hlog ++ w :: l ∧ (u.inst n).released = i.released ∧ (u.inst n).rung = .playing
      ∧ (∀ m, m ≠ n → u.inst m = s.inst m) ∧ u.pool = s.pool ∧ u.hbm = s.hbm
      ∧ u.core n = ((w :: l).foldl (fun s w => s.winApply n .host i.limit w.off w.value)
          (s.setInst n { i with hostHeld := [], hlog := i.hlog ++ w :: l })).core n
      ∧ (w.off = O.CMP_COMMIT → l = [] → (u.core n).commit = (i.core.commit || w.value.getLsbD 0))
      ∧ (w.off = O.ICU_EOI → l = [] → (u.core n).claims = i.core.claims.filter fun x => x.src != w.value.toNat % 64))
    ∧ (i.ckptDone = false → i.replay = [] → i.toLand = i.hostHeld)
    ∧ (i.ckptDone = false → i.toLand = [] → NextWith (exec (.checkpoint n) s) fun u =>
      OnlyInstance n s u ∧ (u.inst n).ckptDone = true ∧ (u.inst n).hlog = [] ∧ u.core n = i.core
      ∧ (match fitRing s.ckptShare (c :: i.ring) with
        | some r => (u.inst n).ring = r ∧ (u.inst n).noUndo = false ∧ (u.inst n).regs = i.regs
        | none => (u.inst n).ring = [] ∧ (u.inst n).noUndo = true
          ∧ ((u.inst n).reg O.BLW_RING).toNat / 65536 = min 65535 ((i.reg O.BLW_RING).toNat / 65536 + 1)))

/-- The events of a frame's lines (R93, R95, R116, R117, R120, R187, R188): a visible line's state point hands its job over with its
deadline, and the latch takes the timing mode and, after a COMMIT, the composer's registers.
When a line's pixels are computed rests on log entry 46. -/
def Obligations.StatePointsAndLatches : Prop :=
  (∀ (n k : Nat) (s v : State), (s.inst n).turnOf .line = some k → v.noCause → v.clean → s.linePoint n (keyStamp k) = some v →
    let i := s.inst n
    let line := i.core.nextLine % classLines i.adm.cls
    exec (.lineStatePoint n) s = .next (State.afterEvent v n k) ∧ (v.core n).nextLine = i.core.nextLine + 1
    ∧ (¬ line < timingLines i.core.timing → (v.inst n).jobs = i.jobs)
    ∧ (line < timingLines i.core.timing → ∃ j, (v.inst n).jobs = i.jobs ++ [j] ∧ j.line = line
      ∧ j.frame = i.core.nextLine / classLines i.adm.cls ∧ j.timing = i.core.timing ∧ j.live = i.core.live
      ∧ (i.catchUp = none → j.deadline =
          some (i.relAt + ((line + 1) * (if i.adm.rate50 then 96000000 else 80000000) + classLines i.adm.cls - 1) / classLines i.adm.cls))))
  ∧ ∀ (n k : Nat) (s : State), (s.inst n).turnOf .latch = some k → s.noCause → (s.core n).micro = [] →
    let c := s.core n
    NextWith (exec (.frameLatch n) s) fun u => OnlyInstance n s u ∧ (u.core n).nextLtch = c.nextLtch + 1
      ∧ (u.core n).commit = false ∧ (u.core n).timingIn = c.reg O.VID_TIMING ∧ (u.core n).beam = c.beam ||| 2
      ∧ (u.core n).live = (if c.commit then c.regs.filter (fun e => shadowed e.1) else c.live)
      ∧ (u.core n).reg O.CMP_COMMIT_FRAME
          = if c.commit then BitVec.ofNat 32 (c.nextLtch + 1) else c.reg O.CMP_COMMIT_FRAME

/-- The beam scheduler (R28, R98, R101, R118, R119): an active idle renderer, with a credit at its queue, captures the first ready job of its group, and a line that is
done leaves its renderer, counted as late when its deadline has passed.
When a line's pixels are computed rests on log entry 46, its fetches on log entry 37, lateness on log entry 62. -/
def Obligations.LinesAreRendered : Prop :=
  (∀ (n k : Nat) (j : LineJob) (s : State), s.noCause → s.rendActive k = true → s.rendBusy k = false → s.rendCredit k = true → s.nextJob (k / 5) = some (n, j) →
    s.mem.poolCe = [] → s.mem.poolUe = [] →
    NextWith (exec (.lineDispatch n k) s) fun u => OnlyInstance n s u ∧ (u.inst n).jobs = (s.inst n).jobs.drop 1
      ∧ (∃ r, (u.inst n).rendering = (s.inst n).rendering ++ [r] ∧ r.job = j ∧ r.renderer = k) ∧ u.core n = s.core n)
  ∧ ∀ (n k : Nat) (i : Inst) (r : Rendering) (l : List Rendering) (m : Map Inst) (s : State), s.noCause → s.clean → n < 512 → s.insts = (n, i) :: m →
    i.rendering = r :: l → r.renderer = k → (∀ b ∈ i.builds, b.frame ≠ r.job.frame) →
    NextWith (exec (.lineRenderDone k) s) fun u => (u.inst n).rendering = l ∧ (∀ m, m ≠ n → u.inst m = s.inst m)
      ∧ (u.pf (O.VID_LATE_LINES + 32 * n)).toNat = min (2 ^ 32 - 1) ((s.pf (O.VID_LATE_LINES + 32 * n)).toNat
          + match r.job.deadline with | some d => if d < s.wall then 1 else 0 | none => 0)

/-- Rotation and the tests of units (R20, R22, R504, R526, R527): the next renderer of a healthy set leaves and is tested, and with it the
set's compressor; a unit that passes goes back to work; one that fails is retired, with its bit of SAF_UNITS or, for a core, an entry
of the audit log. Blit engines are tested in turn, and no unit whose domain is off.
That rows carry the verdicts rests on log entry 59, the records on log entry 60. -/
def Obligations.UnitTests : Prop :=
  ∀ (s : State), s.noCause → s.boot.ready = true → s.safety.test = none →
    (∀ g : Nat, g < 4 → s.powered (9 + g) = true → (s.setHealthy g).length = 5 → s.safety.testing.getD g false = false →
      NextWith (exec (.rendererRotation g true) s) (fun u =>
        u.safety.rendOut = s.safety.rendOut.set g ((s.safety.rendOut.getD g 4 + 1) % 5)
        ∧ u.safety.testing = s.safety.testing.set g true ∧ u.regs = s.regs ∧ u.insts = s.insts)
      ∧ (s.unitGone 1 g = false → s.insts = [] → NextWith (exec (.rendererRotation g false) s) fun u =>
        u.safety.rendOut = s.safety.rendOut.set g ((s.safety.rendOut.getD g 4 + 1) % 5) ∧ u.unitGone 1 g = true
        ∧ u.safety.recs.head?.map (fun r => (r.kind, r.unit)) = some (5, 0x1000 + g)))
    ∧ (∀ g k : Nat, s.outOf g = some k → s.powered (9 + g) = true → s.safety.testing.getD g false = true →
      NextWith (exec (.rendererTestDone g true) s) (fun u => u.safety.testing = s.safety.testing.set (k / 5) false
        ∧ u.regs = s.regs ∧ u.insts = s.insts)
      ∧ (k < 20 → NextWith (exec (.rendererTestDone g false) s) fun u => u.safety.testing = s.safety.testing.set (k / 5) false
        ∧ u.unitGone 0 k = true ∧ u.insts = s.insts ∧ u.safety.recs.head?.map (fun r => (r.kind, r.unit)) = some (5, k)))
    ∧ (∀ k : Nat, s.blitTurn = some k → s.powered 0 = true → s.eng.inTest.contains k = false → s.eng.blit = [] →
      NextWith (exec (.blitEngineTest k true) s) (fun u => u.regs = s.regs ∧ u.eng = s.eng ∧ u.insts = s.insts
        ∧ u.safety.blitNext = (k + 1) % 8)
      ∧ NextWith (exec (.blitEngineTest k false) s) fun u => u.unitGone 2 k = true ∧ u.insts = s.insts
        ∧ u.safety.recs.head?.map (fun r => (r.kind, r.unit)) = some (5, 0x2000 + k))
    ∧ ∀ k : Nat, s.auditCores.contains k = true → s.powered (coreDomain k) = true →
      NextWith (exec (.coreTest k true) s) (fun u => u.regs = s.regs ∧ u.insts = s.insts ∧ u.safety.coreRet = s.safety.coreRet
        ∧ k ∉ u.safety.coreMark)
      ∧ NextWith (exec (.coreTest k false) s) fun u => u.safety.coreRet = s.safety.coreRet + 2 ^ k ∧ u.insts = s.insts
        ∧ u.mram.log.head?.map (fun e => (e.kind, e.arg)) = some (7, k)

/-- A requested test (R528, R537, R540): the request queues it and reads as BUSY, it starts once its unit is drained or is deferred, a
Pool bank group between scrub passes and a core that serves no Playing or Held instance, and it ends with its RESULT.
That rows carry the verdicts rests on log entry 59. -/
def Obligations.RequestedTests : Prop :=
  (∀ (v : Word) (s : State), s.noCause → s.hostHit .pf (.pf O.SAF_TEST_REQ) = .open → s.safety.test = none → v.getLsbD 31 = true →
    NextWith (exec (.safTestReq v) s) fun u =>
      let kind := if 4 < v.toNat / 256 % 8 then 0 else v.toNat / 256 % 8
      u.safety.test = some ⟨kind, min (v.toNat % 128) ([19, 3, 7, 65, 31].getD kind 0), 1⟩
      ∧ (u.pf O.SAF_TEST_STATUS).toNat / 2 ^ 31 = 1 ∧ (u.pf O.SAF_TEST_STATUS).toNat / 2 ^ 24 % 4 = 1 ∧ u.insts = s.insts)
  ∧ ∀ (t : TestSt) (pass : Bool) (s : State), s.noCause → s.safety.test = some t →
    (t.kind = 1 → t.state = 1 → t.index < 4 → s.unitGone 1 t.index = false → s.powered (9 + t.index) = true →
      NextWith (exec (.testStart pass) s) fun u => u.safety.test = some { t with state := 2 } ∧ u.insts = s.insts)
    ∧ (t.kind = 2 → t.state = 1 → t.index < 8 → s.unitGone 2 t.index = true →
      NextWith (exec (.testStart pass) s) fun u => u.safety.test = none ∧ (u.pf O.SAF_TEST_STATUS).toNat % 4 = 2
        ∧ (u.pf O.SAF_TEST_STATUS).toNat / 2 ^ 31 = 0)
    ∧ (t.kind = 3 → t.state = 1 → s.coreOk t.index = true → s.powered (coreDomain t.index) = true →
      NextWith (exec (.testStart pass) s) fun u => u.insts = s.insts ∧ u.safety.test = some { t with state :=
        if (s.insts.any fun e => e.2.servedBy == some t.index) then 1 else 2 })
    ∧ (t.kind = 4 → t.state = 1 → (∀ d, 1 ≤ d → d ≤ 4 → s.powered d = true) →
      NextWith (exec (.testStart pass) s) fun u => u.insts = s.insts ∧ u.safety.test = some { t with state :=
        if (s.pf O.POOL_SCRUB_STATUS).toNat % 8192 = 0 then 2 else 1 })
    ∧ (t.state = 1 → t.kind = 0 ∨ t.kind = 3 →
      NextWith (exec .testDefer s) fun u => u.safety.test = some { t with state := 3 } ∧ (u.pf O.SAF_TEST_STATUS).toNat / 2 ^ 24 % 4 = 3)
    ∧ (t.state = 2 → s.unitPowered t.kind t.index = true →
      NextWith (exec (.testDone true) s) (fun u => u.safety.test = none ∧ (u.pf O.SAF_TEST_STATUS).toNat % 4 = 0
        ∧ (u.pf O.SAF_TEST_STATUS).toNat / 2 ^ 31 = 0 ∧ u.insts = s.insts)
      ∧ (t.kind = 1 → t.index < 4 → s.insts = [] → NextWith (exec (.testDone false) s) fun u => u.safety.test = none
        ∧ (u.pf O.SAF_TEST_STATUS).toNat % 4 = 1 ∧ u.unitGone 1 t.index = true))

/-- The stream (R233, R236, R240, R245 to R247, R249, R252, R256, R296, R392, R397, R480, R481): a slot is claimed, a block row is encoded, a
packet completes, a mover moves it, a watchdog expires, and a bypass block is written or dropped.
That a watchdog expires by command rests on log entry 62, the waits for room on log entry 64, and which of several free slots is
claimed on log entry 66. -/
def Obligations.StreamEvents : Prop :=
  ∀ (n : Nat) (s : State), s.noCause → n < 512 →
    (∀ f k : Nat, (s.inst n).claimDue = some f → k < 4 → k ∉ (s.inst n).usedSlots → (∀ x < k, x ∈ (s.inst n).usedSlots) →
      NextWith (exec (.streamSlotClaim n) s) fun u => OnlyInstance n s u ∧ u.core n = s.core n ∧ (u.inst n).packets = (s.inst n).packets
        ∧ ∃ b, (u.inst n).builds = (s.inst n).builds ++ [b] ∧ b.frame = f ∧ b.slot = k ∧ b.timing = (s.core n).timing
          ∧ b.audio = (s.inst n).preAudio ∧ b.gain = (s.inst n).gain ∧ b.rows = [])
    ∧ (∀ (g : Nat) (q : CmpJob) (b : FrameBuild), g < 4 → s.unitGone 1 g = false → s.testOn 1 g = false → s.nextRow g = some (q, b) →
      NextWith (exec (.compressRow g) s) fun u => (∀ m, m ≠ q.inst → u.inst m = s.inst m) ∧ u.regs = s.regs ∧ u.hbm = s.hbm
        ∧ u.inst q.inst = (s.inst q.inst).modBuild q.frame (fun b' =>
            { b' with rows := b'.rows ++ [encodeRow 3 (timingCols b.timing) ((b.out.drop q.line).take 4)] })
        ∧ ∀ p ∈ u.eng.cmpQ, p ∈ s.eng.cmpQ ∧ ¬ (p.inst = q.inst ∧ p.frame = q.frame ∧ p.line / 4 = q.line / 4))
    ∧ (∀ b : FrameBuild, s.packetReady n = some b → ((s.inst n).staleStep b (nxor b.instCrc 0xFFFFFFFF)).2 = false →
      NextWith (exec (.packetComplete n) s) fun u => (∀ m, m ≠ n → u.inst m = s.inst m) ∧ u.core n = s.core n
        ∧ (u.inst n).builds = (s.inst n).builds.drop 1 ∧ (u.inst n).doneTo = b.frame + 1 ∧ u.eng.seq = s.eng.seq + 1
        ∧ let d := packetBytes n (s.inst n).adm b false (nxor b.instCrc 0xFFFFFFFF)
          u.hbm = putBytes s.hbm ((s.inst n).slotAt b.slot) d
          ∧ (u.inst n).packets = (s.inst n).packets ++ [⟨b.frame, b.slot, d.length, s.eng.seq, none, false, b.modeCh || b.rewound, false, []⟩])
    ∧ (∀ (p : Packet) (l : List ChItem), s.clean → s.chItems (n % 16) = ⟨p.turn, n, false⟩ :: l → (s.inst n).nextPacket = some p →
      s.hbmToHost = true → (s.inst n).vf.streamRoom p.total = true → (∀ q ∈ (s.inst n).packets, q.slot ≠ 4) →
      let d := getBytes s.hbm ((s.inst n).slotAt p.slot) p.total
      (s.inst n).whistleCheck p d = (false, false) →
      NextWith (exec (.packetMove n) s) fun u => (∀ m, m ≠ n → u.inst m = s.inst m) ∧ u.core n = s.core n
        ∧ (u.inst n).dropped = 0 ∧ (u.inst n).hist = (if p.fault then none else some (field d 8 8, field d 0x28 4))
        ∧ u.pf (O.STR_SIG + 16 * n) = BitVec.ofNat 32 (field d 0x28 4)
        ∧ (u.inst n).reg O.STR_LAST_FRAME_LO = BitVec.ofNat 32 (field d 8 8)
        ∧ ∃ l, u.tx = s.tx ++ .write (n + 1) ((s.inst n).vf.ringAddr 3 ((s.inst n).vf.devPtr 3))
          ((movedBytes d (s.inst n).dropped false).take (((s.inst n).vf.ringLen 3 - (s.inst n).vf.devPtr 3) * 64)) :: l)
    ∧ (∀ (f : Nat) (l : List Nat), (s.inst n).whDue = f :: l → (s.inst n).rung = .playing → (s.inst n).faultHeld = false →
      (s.inst n).claimDue = none →
      NextWith (exec (.whistleWatchdogExpire n) s) fun u => (u.inst n).rung = .held ∧ (u.inst n).faultHeld = true
        ∧ tb ((u.inst n).reg O.STR_STATUS).toNat 0 = true ∧ (u.pf (O.SAF_INST_FAULT + 4 * (n / 32))).getLsbD (n % 32) = true
        ∧ (u.pf (O.SAF_INST_CAUSE + 4 * n)).toNat % 256 = 6)
    ∧ ∀ (b : BypBlock) (l : List BypBlock), (s.inst n).vf.bypQ = b :: l →
      let v := (s.inst n).vf
      let linked := s.host.linkUp = true ∧ s.powered 14 = true ∧ s.isDraining 14 = false
      let dropped := NextWith (exec (.bypassBlockMove n) s) fun u => u.core n = s.core n ∧ (u.inst n).vf.bypQ = l
        ∧ (u.inst n).vf.bypLost = min (2 ^ 32 - 1) (v.bypLost + 1) ∧ ∀ m, m ≠ n → u.inst m = s.inst m
      (linked → (s.chItems (n % 16)).head? = some ⟨b.seq, n, true⟩ →
        (0 < v.ringRoom 4 → NextWith (exec (.bypassBlockMove n) s) fun u => (∀ m, m ≠ n → u.inst m = s.inst m)
          ∧ u.core n = s.core n ∧ (u.inst n).vf.bypQ = l ∧ (u.inst n).vf.bypLost = 0
          ∧ ∃ x, u.tx = s.tx ++ .write (n + 1) (v.ringAddr 4 (v.devPtr 4))
              (audioEntry b v.bypLost (v.seqs.getD 4 0 + 1) (if v.phases.getD 4 true then 1 else 0)) :: x)
        ∧ (v.ringRoom 4 = 0 → dropped))
      ∧ (∀ x : ChItem, linked → s.chHead (n % 16) = some x → x ≠ ⟨b.seq, n, true⟩ → s.itemWaits x = true → dropped)
      ∧ (¬ linked → NextWith (exec (.bypassBlockMove n) s) fun u => u.insts = s.insts)

/-- The monitor outputs (R248, R269, R271 to R275, R505, R537, R544, R546): frames, slots, links and the I2S queue.
What a link train carries rests on log entry 58. -/
def Obligations.MonitorEvents : Prop :=
  ∀ (k : Nat) (s : State), s.noCause → k < 2 → s.mons.length = 2 →
    let o := O.DPO_STATUS + 16 * k
    let m := s.mon k
    (let n := s.pfBits (O.DPO_CTRL + 16 * k) 24 16
     s.clean → s.monReady k = true → (s.inst n).adm.state = 2 → m.source = some n ∨ m.holds = none →
      (∀ p : Packet, s.monSelect n = some p → (s.inst n).lastFault = false →
        tb ((s.inst n).reg O.STR_STATUS).toNat 0 = false → s.chipFault = false → s.safety.avClock = false →
        NextWith (exec (.monitorFrameStart k) s) fun u => (u.mon k).source = some n ∧ (u.mon k).showing = some (n, p.seq)
          ∧ (u.mon k).holds = some (n, p.slot) ∧ (u.mon k).picture = s.monPicture n p ∧ (u.mon k).black = false
          ∧ (u.mon k).mark = s.wall + 4800 ∧ (u.pf o).getLsbD 28 = false ∧ (∀ x, u.core x = s.core x))
      ∧ (s.monSelect n = none → NextWith (exec (.monitorFrameStart k) s) fun u => (u.mon k).source = some n
          ∧ (u.mon k).holds = none ∧ (u.mon k).black = true ∧ (u.mon k).mark = s.wall + 4800 ∧ (u.pf o).getLsbD 28 = true
          ∧ (∀ x, u.core x = s.core x)))
    ∧ (let n := s.pfBits (O.DPO_CTRL + 16 * k) 24 16
      s.monReady k = false → s.dpoOn k = true → (s.pf O.CLK_STATUS).getLsbD 3 = true →
      NextWith (exec (.monitorFrameStart k) s) fun u => (u.mon k).source = some n ∧ (u.mon k).mark = s.wall + 4800
        ∧ (m.source ≠ some n → (u.mon k).audio = [] ∧ (u.mon k).holds = none) ∧ ∀ x, u.core x = s.core x)
    ∧ (∀ n x : Nat, s.monReady k = false → m.holds = some (n, x) →
      NextWith (exec (.monitorSlotRelease k) s) fun u => (u.mon k).holds = none ∧ (u.mon k).showing = none
        ∧ ∀ y, u.core y = s.core y)
    ∧ (s.pins.hpd.getD k false = true → s.boot.ready = true →
      (∀ lanes rate : Nat, lanes ∈ [1, 2, 4] → 1 ≤ rate → rate ≤ 4 →
        NextWith (exec (.dpLinkTrain k lanes rate) s) fun u => (u.pf o).toNat / 2 ^ 16 % 128 = lanes * 16 + rate
          ∧ (u.pf o).getLsbD 30 = true
          ∧ (u.pf o).getLsbD 29 = decide (lanes * ([0, 162, 270, 540, 810].getD rate 0) * 8 < 3564) ∧ u.insts = s.insts)
      ∧ NextWith (exec (.dpLinkTrain k 0 0) s) fun u => (u.pf o).toNat / 2 ^ 16 % 128 = 0 ∧ (u.pf o).toNat / 2 ^ 29 % 4 = 0
          ∧ (u.mon k).holds = none ∧ (∀ x, u.core x = s.core x)
          ∧ (s.dpoUp k = true → (u.pf O.ICU_C_PENDING).getLsbD (14 + k) = true))
    ∧ (s.boot.perst = false → s.boot.powered = true → s.mirrored = false → s.pwr ≠ 4 →
      (s.pins.hpd.getD k false = false → NextWith (exec (.hpdEvent k .plug) s) fun u => u.pins.hpd = s.pins.hpd.set k true
        ∧ (u.pf o).getLsbD 31 = true ∧ u.insts = s.insts)
      ∧ (s.pins.hpd.getD k false = true → NextWith (exec (.hpdEvent k .unplug) s) fun u => u.pins.hpd = s.pins.hpd.set k false
        ∧ (u.pf o).toNat / 2 ^ 29 = 0 ∧ (u.pf o).toNat / 2 ^ 16 % 128 = 0 ∧ (u.mon k).holds = none)
      ∧ NextWith (exec (.hpdEvent k .irq) s) fun u => u.pins = s.pins ∧ u.regs = s.regs ∧ u.insts = s.insts)
    ∧ (s.dpoUp k = true → NextWith (exec (.dpLinkLoss k) s) fun u => (u.pf o).toNat / 2 ^ 29 % 4 = 0
        ∧ (u.pf o).toNat / 2 ^ 16 % 128 = 0 ∧ (u.mon k).holds = none
        ∧ (u.pf (O.ICU_C_PENDING)).getLsbD (14 + k) = true)
    ∧ (s.dpoOn k = true → s.safety.avClock = false →
      (∀ b l, m.audio = b :: l → NextWith (exec (.i2sBlockDrain k) s) fun u => u.mon k = { m with audio := l, sending := b, playing := true }
        ∧ u.regs = s.regs ∧ u.insts = s.insts)
      ∧ (m.audio = [] → m.playing = true → NextWith (exec (.i2sBlockDrain k) s) fun u => u.mon k = { m with playing := false, sending := [] }
        ∧ (u.pf (O.DPO_I2S + 16 * k)).toNat / 65536 = min 65535 ((s.pf (O.DPO_I2S + 16 * k)).toNat / 65536 + 1) ∧ u.insts = s.insts))

/-- The Bell layer (R203, R206 to R208): COMMIT makes the staging bank pending, a release makes it active, and the surface window
writes it while it is not pending.
The widths of the surface window rest on log entry 47. -/
def Obligations.BellEvents : Prop :=
  ∀ (n : Nat) (s : State), s.noCause → n < 512 →
    let st := O.CMP_BELL_STATUS + 128 * n
    (∀ v : Word, s.Direct .pf (.pf (O.CMP_BELL_COMMIT + 128 * n)) → (s.inst n).adm.state = 2 →
      NextWith (exec (.cmpBellCommit n v) s) fun u => u.answer = some .done ∧ u.insts = s.insts ∧ u.pool = s.pool
        ∧ u.pf st = if v.getLsbD 0 = false then s.pf st
          else if s.bellPending n = true ∨ 12288 < (s.bellStaged n).h * bellPitch (s.bellStaged n).w (bellBpp (bits (s.bellStaged n).ctrl 3 2))
            then s.pf st ||| 32 else s.pf st ||| 2)
    ∧ (∀ c : BellCfg, (s.inst n).bell.next = some c → NextWith (exec (.bellBankSwitch n) s) fun u =>
      u.inst n = { s.inst n with bell := { act := c, next := none } } ∧ (∀ m, m ≠ n → u.inst m = s.inst m)
        ∧ (u.pf st).toNat % 4 = 1 - s.bellBank n ∧ (u.pf st).toNat / 4 = (s.pf st).toNat / 4)
    ∧ ∀ off width v : Nat, s.pfBits O.CMP_BELL_WIN_SEL 8 0 = n → off < 0x3000 → width ∈ [1, 2, 4, 8] → off % width = 0 →
      s.Direct .pf (.pf (0x3A0000 + off)) →
      (s.bellPending n = false → s.badOf .pool = ([], []) → NextWith (exec (.bellSurfaceWrite off width v) s) fun u => u.regs = s.regs ∧ u.insts = s.insts
        ∧ ∀ a, u.pool.get zeroByte a =
            if 0x6880000 + n * 0x8000 + (1 - s.bellBank n) * 0x3000 + off ≤ a
                ∧ a < 0x6880000 + n * 0x8000 + (1 - s.bellBank n) * 0x3000 + off + width
            then BitVec.ofNat 8 (v / 256 ^ (a - (0x6880000 + n * 0x8000 + (1 - s.bellBank n) * 0x3000 + off)))
            else s.pool.get zeroByte a)
      ∧ (s.bellPending n = true → NextWith (exec (.bellSurfaceWrite off width v) s) fun u => u.pool = s.pool
        ∧ u.pf st = s.pf st ||| 16 ∧ u.insts = s.insts)

/-- The rung commands once they run (R18, R440, R450, R452, R453, R456, R458 to R460): the rung that each leaves, and what it restores
or resets.
The order of decisions rests on log entry 28, REWIND with BACK 0 on log entry 27, RESET in one step on log entry 50, the place that
an instance takes on log entry 35. -/
def Obligations.RungMoves : Prop :=
  ∀ (n : Nat) (c : RungCmd) (shelf : Option (List Byte)) (s : State), s.noCause → s.clean → c.tag = none →
    let i := s.inst n
    let result := fun (op r : Nat) (u : State) => (u.inst n).running = none
      ∧ (u.inst n).reg O.BLW_CMD_STATUS = BitVec.ofNat 32 (16 * op + r) ∧ ∀ m, m ≠ n → u.inst m = s.inst m
    let ends := fun (op : Nat) (u : State) => result op 0 u
    (s.rungRuns n 1 = some c → i.rung = .playing → i.atRest = true →
      NextWith (exec (.hold n) s) fun u => ends 1 u ∧ (u.inst n).rung = .held ∧ (u.inst n).aligned = true ∧ u.core n = i.core
        ∧ (u.inst n).hostAt = i.hostPos)
    ∧ (s.rungRuns n 2 = some c → i.rung = .playing →
      NextWith (exec (.holdNow n) s) fun u => ends 2 u ∧ (u.inst n).rung = .held ∧ (u.inst n).aligned = i.ckptDone
        ∧ u.core n = i.core.finishReturns ∧ (u.inst n).hostAt = i.hostPos)
    ∧ (s.rungRuns n 3 = some c →
      (i.rung = .held ∨ ((i.rung = .benched ∨ i.rung = .parked) ∧ (s.placeFor n).isSome = true) → i.ckptDone = true → i.core.micro = [] →
        NextWith (exec (.play n shelf) s) fun u => ends 3 u ∧ (u.inst n).rung = .playing ∧ (u.inst n).faultHeld = false
          ∧ (u.inst n).anchor = some (s.wall, i.released) ∧ u.core n = i.core
          ∧ (u.inst n).place = if i.rung = .held then i.place else s.placeFor n)
      ∧ (i.rung = .shelved → i.shelfOk = false → (s.placeFor n).isSome = true →
        NextWith (exec (.play n shelf) s) fun u => ends 3 u ∧ (u.inst n).rung = .playing ∧ (u.inst n).released = 0))
    ∧ (s.rungRuns n 4 = some c → i.rung = .held ∨ i.rung = .parked →
      NextWith (exec (.bench n shelf) s) fun u => ends 4 u ∧ (u.inst n).rung = .benched ∧ u.core n = i.core)
    ∧ (s.rungRuns n 5 = some c →
      (i.rung = .held ∨ i.rung = .benched → NextWith (exec (.park n shelf) s) fun u => ends 5 u ∧ (u.inst n).rung = .parked
        ∧ u.core n = i.core)
      ∧ (i.rung = .shelved → i.shelfOk = true → s.pfTraffic = true → s.workTurn c.seq = true →
        (s.shelfOkExtents n = false → NextWith (exec (.park n shelf) s) fun u => result 5 5 u ∧ (u.inst n).rung = .shelved)
        ∧ (s.shelfOkExtents n = true → shelf = none → NextWith (exec (.park n shelf) s) fun u => result 5 7 u
          ∧ (u.inst n).rung = .shelved)
        ∧ ∀ b : List Byte, s.shelfOkExtents n = true → shelf = some b → s.shelfLen n ≤ b.length →
          (s.shelfFits n b = false → NextWith (exec (.park n shelf) s) fun u => result 5 5 u ∧ (u.inst n).rung = .shelved)
          ∧ (s.shelfFits n b = true → NextWith (exec (.park n shelf) s) fun u => ends 5 u ∧ (u.inst n).rung = .parked
            ∧ (u.inst n).shelfOk = false ∧ (u.inst n).released = field b 8 8 ∧ (u.inst n).ckptDone = true)))
    ∧ (s.rungRuns n 6 = some c → i.rung = .held ∨ i.rung = .benched ∨ i.rung = .parked → s.pfTraffic = true → s.workTurn c.seq = true →
      s.shelfOkExtents n = true →
      NextWith (exec (.shelve n) s) fun u => ends 6 u ∧ (u.inst n).rung = .shelved ∧ (u.inst n).shelfOk = true ∧ (u.inst n).ring = [])
    ∧ (∀ top k : Ckpt, s.rungRuns n 7 = some c → i.jobs = [] → i.rendering = [] → i.ring[0]? = some top → i.ring[c.back]? = some k →
      s.undoLeaf n c.back = none →
      NextWith (exec (.rewind n) s) fun u => ends 7 u ∧ (u.inst n).rung = i.rung ∧ (u.inst n).released = k.frame
        ∧ u.core n = { k.core with blits := k.core.blits.map fun j => { j with phase := .waiting, ownCred := false } }
        ∧ (u.inst n).ring = { k with undo := [], input := none } :: i.ring.drop (c.back + 1) ∧ (u.inst n).rewound = true
        ∧ (u.inst n).catchUp = (if k.frame < top.frame then some ⟨top.frame, c.wait⟩ else none) ∧ (u.inst n).builds = [])
    ∧ (s.rungRuns n 8 = some c → NextWith (exec (.instReset n) s) fun u => ends 8 u ∧ (u.inst n).rung = i.rung
        ∧ (u.inst n).released = 0 ∧ (u.inst n).faultHeld = false ∧ (u.inst n).shelfOk = false
        ∧ ((u.core n).thread 0).run = true ∧ ((u.core n).thread 0).pc = i.core.reg O.INST_RESET_PC &&& 0xFFFFFFFC)
    ∧ (s.rungRuns n 9 = some c → NextWith (exec (.adopt n) s) fun u => ends 9 u ∧ (u.inst n).rung = i.rung ∧ (u.inst n).shelfOk = true
        ∧ u.core n = i.core)

/-- How rung commands come to run, and the undo copies and audits beside them (R436, R438, R445 to R447, R449, R477).
The order of decisions rests on log entry 28, the audits on log entries 35 and 70. -/
def Obligations.LadderEvents : Prop :=
  ∀ (n : Nat) (s : State), s.noCause →
    let i := s.inst n
    (∀ c : RungCmd, i.running = some c → c.queued = true → s.rungRunning < 16 →
      (∀ e ∈ s.insts, ∀ d, e.2.running = some d → d.queued = true → c.seq ≤ d.seq) →
      NextWith (exec (.rungCommandDequeue n) s) fun u => OnlyInstance n s u
        ∧ u.inst n = { i with running := some { c with queued := false } })
    ∧ (∀ e : List Byte, 0 < i.vf.ringPending 1 → i.running = none → s.awake = true → s.chipFault = false → field e 0 1 ≤ 9 →
      field e 1 1 < 32 → field e 2 2 = 0 → field e 8 24 = 0 →
      (1 ≤ field e 0 1 → s.rungDecide n (field e 0 1) (field e 1 1 % 16) = none →
        NextWith (exec (.cmdEntry n e) s) fun u => (∀ m, m ≠ n → u.inst m = s.inst m) ∧ u.core n = i.core ∧ u.regs = s.regs
          ∧ (u.inst n).vf = i.vf.advance 1 1 ∧ ∃ c, (u.inst n).running = some c ∧ c.op = field e 0 1 ∧ c.back = field e 1 1 % 16
            ∧ c.wait = decide (16 ≤ field e 1 1) ∧ c.tag = some (field e 4 4) ∧ c.queued = s.rungWaits)
      ∧ (field e 0 1 = 0 → 0 < i.vf.ringRoom 2 → NextWith (exec (.cmdEntry n e) s) fun u => (∀ m, m ≠ n → u.inst m = s.inst m)
          ∧ u.core n = i.core ∧ (u.inst n).running = none
          ∧ ∃ l, u.tx = s.tx ++ .write (n + 1) (i.vf.ringAddr 2 (i.vf.devPtr 2))
            (complBytes 3 0 n (field e 4 4) 0 0 0 0 (i.vf.seqs.getD 2 0 + 1) (if i.vf.phases.getD 2 true then 1 else 0)) :: l))
    ∧ (∀ (r b : Nat) (c : Ckpt) (rest l : List Ckpt) (cells : List (Nat × Byte)), s.clean → s.admitted n = true →
      i.rung = .playing ∨ i.rung = .held → s.blockExists n r b = true → i.ring = c :: rest → i.noUndo = false →
      (∀ x ∈ c.undo, ¬ (x.region = r ∧ x.block = b)) → s.blockCells n r b = some cells →
      fitRing s.ckptShare ({ c with undo := ⟨r, b, cells⟩ :: c.undo } :: rest) = some l →
      NextWith (exec (.undoCopy n r b) s) fun u => OnlyInstance n s u ∧ u.inst n = { i with ring := l })
    ∧ (∀ (slot again c : Nat), s.auditCore slot = some c → s.auditTurn = some n →
      let u0 := s.auditPassed n
      let audits := fun (u : State) => ((u.inst n).reg O.BLW_AUDIT).toNat % 2 ^ 24
      let skipped := fun (r : AuditOutcome) => NextWith (exec (.auditRun n slot again r) s) fun u => OnlyInstance n u0 u ∧ u.core n = i.core
        ∧ (u.inst n).rung = i.rung
        ∧ ((u.inst n).reg O.BLW_AUDIT).toNat / 2 ^ 24 % 128 = min 127 ((i.reg O.BLW_AUDIT).toNat / 2 ^ 24 % 128 + 1)
      (∀ r : AuditOutcome, i.ring[1]? = none → i.cut = true → skipped r)
      ∧ ∀ k : Ckpt, i.ring[1]? = some k →
        (∀ r : AuditOutcome, k.auditBig = true → skipped r)
        ∧ (k.auditBig = false → NextWith (exec (.auditRun n slot again .pass) s) fun u => OnlyInstance n u0 u ∧ u.core n = i.core
          ∧ (u.inst n).rung = i.rung ∧ audits u = ((i.reg O.BLW_AUDIT).toNat + 1) % 2 ^ 24)
        ∧ (n < 512 → k.auditBig = false → s.auditAgain slot again = true → i.faultHeld = false → ∀ r ∈ [AuditOutcome.secondAgrees, .undecided],
          NextWith (exec (.auditRun n slot again r) s) fun u => ((u.inst n).reg O.BLW_AUDIT).getLsbD 31 = true
            ∧ (u.inst n).rung = .held ∧ (u.inst n).faultHeld = true ∧ (u.pf (O.SAF_INST_CAUSE + 4 * n)).toNat % 256 = 0x0A
            ∧ audits u = ((i.reg O.BLW_AUDIT).toNat + 2) % 2 ^ 24
            ∧ (r = .undecided → u.safety.coreMark = c :: (s.auditCore again).getD c :: s.safety.coreMark)))

/-- The Extent Table and the leaf cache (R391, R422, R424 to R426, R428 to R430, R439, R466, R529).
The cache's frames rest on log entry 51. -/
def Obligations.CartridgeEvents : Prop :=
  ∀ (s : State), s.noCause →
    (∀ e : Nat, s.extRuns 1 = some e →
      (s.extRefusal e s.extStaged = 0 → s.writesBack e s.extStaged = false ∨ s.pfTraffic = true →
        NextWith (exec .extWrite s) fun u => u.mem.ext.get zeroAt e = s.extStaged ∧ (∀ x, x ≠ e → u.mem.ext.get zeroAt x = s.mem.ext.get zeroAt x)
          ∧ (∀ x ∈ u.mem.leaves, x.extent ≠ e) ∧ u.pf O.EXT_CMD_STATUS = 0 ∧ u.mem.extCmd = none
          ∧ (u.pf O.ICU_C_PENDING).getLsbD 1 = true ∧ u.insts = s.insts)
      ∧ (s.extRefusal e s.extStaged ≠ 0 → NextWith (exec .extWrite s) fun u => u.mem.ext = s.mem.ext ∧ u.mem.leaves = s.mem.leaves
          ∧ u.pf O.EXT_CMD_STATUS = BitVec.ofNat 32 (s.extRefusal e s.extStaged) ∧ u.mem.extCmd = none ∧ u.insts = s.insts))
    ∧ (∀ e : Nat, s.clean → s.extRuns 2 = some e → NextWith (exec .extRead s) fun u => u.pf O.EXT_CMD_STATUS = 0 ∧ u.mem.extCmd = none
      ∧ (∀ k < 4, u.pf (O.EXT_STAGE + 4 * k) = BitVec.ofNat 32 (s.mem.ext.get zeroAt e / 2 ^ (32 * k)))
      ∧ u.mem.ext = s.mem.ext ∧ u.mem.leaves = s.mem.leaves ∧ u.insts = s.insts)
    ∧ (∀ e : Nat, s.extRuns 3 = some e → s.pfTraffic = true → NextWith (exec .extFlush s) fun u => u.pf O.EXT_CMD_STATUS = 0
      ∧ u.mem.extCmd = none ∧ (∀ x ∈ u.mem.leaves, x.extent = e → x.dirty = false) ∧ u.mem.ext = s.mem.ext ∧ u.insts = s.insts)
    ∧ (∀ e : Nat, s.extRuns 4 = some e → NextWith (exec .extDrop s) fun u => u.pf O.EXT_CMD_STATUS = 0 ∧ u.mem.extCmd = none
      ∧ u.mem.leaves = (s.mem.leaves.filter fun x => !(x.extent == e && !x.dirty)) ∧ u.mem.ext = s.mem.ext ∧ u.insts = s.insts)
    ∧ (∀ (e : Nat) (got : List (Option (List Byte))), s.extRuns 5 = some e → s.pfTraffic = true → s.workTurn s.mem.extSeq = true →
      let miss := (List.range 256).filter fun l => s.leafMissing e l
      NextWith (exec (.extFetch got) s) fun u => u.mem.extCmd = none
        ∧ u.pf O.EXT_CMD_STATUS = (if ((List.range miss.length).any fun k => ((got[k]?).join).isNone) then 4 else 0)
        ∧ ∀ l d, miss = [l] → got = [some d] → s.leafWaiters e l = [] → u.mem.ext = s.mem.ext ∧ u.insts = s.insts
          ∧ (u.leaf? e l).map (fun x => (x.cells, x.dirty)) = some (leafCells d, false))
    ∧ (∀ (n : Nat) (v : Word), n < 512 → s.Direct .pf (.pf (O.EXT_SPAN_FIRST + 8 * n)) →
      (s.inUse n = false → (v.toNat % 2 ^ 17 + (s.pf (O.EXT_SPAN_COUNT + 8 * n)).toNat % 2 ^ 18 ≤ 131072) →
        NextWith (exec (.extSpanWrite .pf n false v) s) fun u => OnlyReg (O.EXT_SPAN_FIRST + 8 * n) s u
          ∧ u.pf (O.EXT_SPAN_FIRST + 8 * n) = v &&& 0x1FFFF)
      ∧ (s.inUse n = true → NextWith (exec (.extSpanWrite .pf n false v) s) fun u => OnlyReg (O.EXT_FAULT + 4 * n) s u
          ∧ (u.pf (O.EXT_FAULT + 4 * n)).getLsbD 4 = true))
    ∧ (∀ (n : Nat) (v : Word), n < 512 → s.Direct .pf (.pf (O.EXT_SPAN_COUNT + 8 * n)) → s.inUse n = false →
      NextWith (exec (.extSpanWrite .pf n true v) s) fun u => u.insts = s.insts ∧ (u.pf (O.EXT_SPAN_COUNT + 8 * n)).toNat
        = min (v.toNat % 2 ^ 18) (131072 - (s.pf (O.EXT_SPAN_FIRST + 8 * n)).toNat % 2 ^ 17))
    ∧ ∀ (e l : Nat), s.leafMissing e l = true → s.pfTraffic = true →
      (∀ m ∈ s.leafWaiters e l, s.rungRuns m 7 = none ∧ ∃ k t, (s.inst m).turn = some (k, .thread t)) →
      (s.leafWaiters e l ≠ [] → ∀ d : List Byte, NextWith (exec (.leafMove e l (some d)) s) fun u =>
        (u.leaf? e l).map (fun x => (x.cells, x.dirty)) = some (leafCells d, false) ∧ u.insts = s.insts ∧ u.regs = s.regs)
      ∧ ∀ n : Nat, n < 512 → s.leafWaiters e l = [n] → (s.inst n).faultHeld = false →
        NextWith (exec (.leafMove e l none) s) fun u => (u.pf (O.EXT_FAULT + 4 * n)).getLsbD 3 = true ∧ (u.inst n).faultHeld = true
          ∧ (u.pf (O.SAF_INST_CAUSE + 4 * n)).toNat % 256 = 5 ∧ u.leaf? e l = none ∧ ∀ m, m ≠ n → u.inst m = s.inst m

/-- The mover rings of the PF (R393 to R397, R478, R490, R494, R495): a descriptor starts, completes with its entry or waits, and a ring
is rung, disabled and resumed.
Which descriptor completes rests on log entry 54. -/
def Obligations.MoverEvents : Prop :=
  ∀ (r : Nat) (s : State), s.noCause → r < 4 →
    let len := 2 ^ s.pfBits (O.HST_MV_RING_SIZE + 32 * r) 4 0
    let c := O.HST_MV_RING_CTRL + 32 * r
    let a := (s.pf O.HST_PF_CQ_HI).toNat * 2 ^ 32 + (s.pf O.HST_PF_CQ_LO).toNat + 32 * s.pfBits O.HST_PF_CQ_DEV_PTR 21 0
    let entry := fun (status tag : Nat) =>
      complBytes 4 status 0xFFFF tag 0 0 0 r (s.host.cqSeq + 1) (if s.host.cqPhase then 1 else 0)
    (∀ desc data : List Byte, s.moverReady r = true → desc.length = 32 →
      (∀ d ∈ s.host.descs, d.ring = r → field desc 1 1 / 2 % 2 = 0) →
      let d : Desc := { ring := r, desc }
      let refuse := if d.malformed then 1 else if s.moverDenied d then 2 else if s.moverDark d then 5 else 0
      (field desc 0 1 = 2 → field desc 4 4 ≠ 0 ∨ refuse ≠ 0 → NextWith (exec (.moverFill r desc) s) fun u => OnlyReg (O.HST_MV_HEAD + 32 * r) s u
        ∧ (u.pf (O.HST_MV_HEAD + 32 * r)).toNat % 65536 = ((s.pf (O.HST_MV_HEAD + 32 * r)).toNat % 65536 + 1) % len % 65536
        ∧ u.host.descs = s.host.descs ++ [{ d with status := refuse, data := if refuse = 0 then (List.range (field desc 4 4)).map (fun k => desc.getD (8 + k % 8) 0) else [] }])
      ∧ (field desc 4 4 = 0 → refuse = 0 → 0 < s.cqRoom →
        NextWith (exec (if field desc 0 1 = 2 then .moverFill r desc else .moverCopy r desc data) s) fun u => u.host.descs = s.host.descs
          ∧ u.insts = s.insts ∧ u.hbm = s.hbm ∧ u.pool = s.pool ∧ ∃ x, u.tx = s.tx ++ .write 0 a (entry 0 d.tag) :: x)
      ∧ (field desc 0 1 ≠ 2 → (field desc 4 4 ≠ 0 ∧ field desc 2 1 = 0) ∨ refuse ≠ 0 →
        NextWith (exec (.moverCopy r desc data) s) fun u => OnlyReg (O.HST_MV_HEAD + 32 * r) s u
        ∧ u.host.descs = s.host.descs ++ [{ d with
              status := if refuse ≠ 0 then refuse else if data.length < field desc 4 4 then 3 else 0,
              data := if refuse = 0 then data.take (field desc 4 4) else [] }])
      ∧ (field desc 0 1 ≠ 2 → field desc 2 1 = 2 → refuse = 0 → field desc 4 4 ≠ 0 → s.badOf .pool = ([], []) → s.mem.marched = [] →
        NextWith (exec (.moverCopy r desc data) s) fun u => OnlyReg (O.HST_MV_HEAD + 32 * r) s u
        ∧ u.host.descs = s.host.descs ++ [{ d with data := getBytes s.pool (field desc 8 8) (field desc 4 4) }])
      ∧ (field desc 0 1 ≠ 2 → field desc 2 1 = 1 → refuse = 0 → field desc 4 4 ≠ 0 → s.badOf .hbm = ([], []) →
        (∀ k < field desc 4 4, s.hbmHidden (field desc 8 8 + k) = false) →
        NextWith (exec (.moverCopy r desc data) s) fun u => OnlyReg (O.HST_MV_HEAD + 32 * r) s u
        ∧ u.host.descs = s.host.descs ++ [{ d with data := getBytes s.hbm (field desc 8 8) (field desc 4 4) }]))
    ∧ (∀ (d : Desc) (l : List Desc), s.host.descs = d :: l → d.ring = r → (∀ x ∈ s.host.descs, x.waits = false) →
      (d.status = 0 → d.dstSp = 1 → 0 < s.cqRoom → NextWith (exec (.moverDescriptorComplete r) s) fun u => u.host.descs = l
        ∧ u.insts = s.insts ∧ u.hbm = putBytes s.hbm d.dst d.data ∧ u.pool = s.pool ∧ ∃ x, u.tx = s.tx ++ .write 0 a (entry d.status d.tag) :: x)
      ∧ (d.status = 0 → d.dstSp = 0 → d.data ≠ [] → 0 < s.cqRoom → NextWith (exec (.moverDescriptorComplete r) s) fun u =>
        u.host.descs = l ∧ u.insts = s.insts ∧ u.hbm = s.hbm ∧ u.pool = s.pool
        ∧ ∃ x, u.tx = s.tx ++ .write 0 d.dst d.data :: .write 0 a (entry d.status d.tag) :: x)
      ∧ (d.status ≠ 0 → d.data = [] → 0 < s.cqRoom → NextWith (exec (.moverDescriptorComplete r) s) fun u => u.host.descs = l
        ∧ u.insts = s.insts ∧ u.hbm = s.hbm ∧ u.pool = s.pool ∧ (∃ x, u.tx = s.tx ++ .write 0 a (entry d.status d.tag) :: x)
        ∧ ((s.pf c).getLsbD 1 = true → (u.pf c).getLsbD 8 = true))
      ∧ (d.data = [] → s.cqRoom = 0 → NextWith (exec (.moverDescriptorComplete r) s) fun u =>
        u.host.descs = { d with waits := true } :: l ∧ u.insts = s.insts ∧ u.hbm = s.hbm ∧ u.pool = s.pool ∧ u.regs = s.regs))
    ∧ (∀ v : Word, s.Direct .pf (.pf (O.HST_MV_TAIL + 32 * r)) → NextWith (exec (.hstMvTail r v) s) fun u =>
      u.answer = some .done ∧ u.pf (O.HST_MV_TAIL + 32 * r) = BitVec.ofNat 32 (min (v.toNat % 65536) (len - 1)) ∧ u.insts = s.insts
        ∧ (u.pf O.HST_MV_CLAMP_COUNT).toNat
          = min (2 ^ 32 - 1) ((s.pf O.HST_MV_CLAMP_COUNT).toNat + if len ≤ v.toNat % 65536 then 1 else 0))
    ∧ (s.Direct .pf (.pf c) →
      NextWith (exec (.moverRingDisable r) s) (fun u => OnlyReg c s u ∧ u.pf c = s.pf c &&& 0xFFFFFFFE
        ∧ u.host.descs = s.host.descs.map fun d => if d.ring = r ∧ d.waits = false ∧ d.status = 0 then { d with status := 7 } else d)
      ∧ NextWith (exec (.moverRingResume r) s) fun u => OnlyReg c s u ∧ u.pf c = s.pf c &&& 0xFFFFFEFF
        ∧ ((s.pf c).getLsbD 0 = true → u.host.descs = s.host.descs))
    ∧ ∀ k : Nat, k < 16 → (s.chBlocked k).isSome = true → NextWith (exec (.channelWatchdogExpire k) s) fun u =>
        OnlyReg O.HST_WD_STATUS s u ∧ u.pf O.HST_WD_STATUS = s.pf O.HST_WD_STATUS ||| BitVec.ofNat 32 (2 ^ k)

/-- The rings of a VF (R469 to R471, R473, R475, R482, R483, R488): enables, doorbells, input packets, failed reads and the delayed
interrupt.
When a ring is read rests on log entries 17 and 64, the form of the MSI-X table on log entry 13. -/
def Obligations.VfRingEvents : Prop :=
  ∀ (n : Nat) (s : State), s.noCause → n < 512 →
    let i := s.inst n
    let v := i.vf
    (∀ e : List Byte, s.inputDue n = true → field e 12 4 = 0 →
      (i.released ≤ field e 0 8 → (∀ h ∈ i.held, h.frame ≠ field e 0 8) → NextWith (exec (.inputArrive n e) s) fun u => OnlyInstance n s u
        ∧ u.inst n = { i with vf := v.advance 0 1
                              held := i.held ++ [{ frame := field e 0 8, data := e.take 64, at' := s.wall }] })
      ∧ (field e 0 8 < i.released → NextWith (exec (.inputArrive n e) s) fun u => (u.inst n).held = i.held ∧ u.core n = i.core
        ∧ (u.pf (O.VID_PACE_STATUS + 32 * n)).toNat % 65536 = min 65535 ((s.pf (O.VID_PACE_STATUS + 32 * n)).toNat % 65536 + 1)
        ∧ ∀ m, m ≠ n → u.inst m = s.inst m))
    ∧ (∀ r : Nat, (r = 0 ∧ s.inputDue n = true) ∨ (r = 1 ∧ s.cmdDue n = true) → NextWith (exec (.ringReadFail n r) s) fun u =>
      (u.inst n).vf.reg (O.HST_VF_RING_CTRL + 32 * r) = 0 ∧ ((u.inst n).vf.reg O.HST_VF_STATUS).getLsbD (5 + r) = true
        ∧ u.core n = i.core ∧ ∀ m, m ≠ n → u.inst m = s.inst m)
    ∧ (∀ (p : Path) (r : Nat) (w : Word), r < 5 → s.Direct p (.bar2 n (O.HST_VF_RING_CTRL + 32 * r)) →
      (∀ c, i.running = some c → c.ended = none) →
      NextWith (exec (.hstVfRingEnable p n r w) s) fun u => u.answer = some .done ∧ u.core n = i.core ∧ (∀ m, m ≠ n → u.inst m = s.inst m)
        ∧ (u.inst n).vf.reg (O.HST_VF_RING_CTRL + 32 * r) = w &&& 1
        ∧ ((v.reg (O.HST_VF_RING_CTRL + 32 * r)).getLsbD 0 = false → w.getLsbD 0 = true →
          (u.inst n).vf.devPtr r = 0 ∧ (u.inst n).vf.hostPtr r = 0)
        ∧ ((v.reg (O.HST_VF_RING_CTRL + 32 * r)).getLsbD 0 = true ∨ w.getLsbD 0 = false →
          (u.inst n).vf.devPtr r = v.devPtr r ∧ (u.inst n).vf.hostPtr r = v.hostPtr r))
    ∧ (∀ (p : Path) (r : Nat) (w : Word), r < 5 → s.Direct p (.bar2 n (O.HST_VF_DB + 4096 * r)) →
      (∀ c, i.running = some c → c.ended = none) →
      let len := v.ringLen r
      let to' := min (w.toNat % 2 ^ 22) (len - 1)
      let grows := (v.devPtr r + len - v.hostPtr r % len) % len < (v.devPtr r + len - to' % len) % len
      (r < 2 ∨ ¬ grows → NextWith (exec (.hstVfDb p n r w) s) fun u => u.answer = some .done ∧ u.core n = i.core
        ∧ (∀ m, m ≠ n → u.inst m = s.inst m) ∧ (u.inst n).vf.reg (O.HST_VF_DB + 4096 * r) = BitVec.ofNat 32 to')
      ∧ (2 ≤ r → grows → NextWith (exec (.hstVfDb p n r w) s) fun u => u.answer = some .done ∧ u.core n = i.core
        ∧ (u.inst n).vf.reg (O.HST_VF_DB + 4096 * r) = v.reg (O.HST_VF_DB + 4096 * r)
        ∧ ((u.inst n).vf.reg O.HST_VF_STATUS).getLsbD 3 = true))
    ∧ (0 < v.unsig → v.rbits O.HST_VF_IRQ_MOD 15 0 ≠ 0 → NextWith (exec (.irqDelayExpire n) s) fun u => (u.inst n).vf.unsig = 0
        ∧ u.core n = i.core ∧ (∀ m, m ≠ n → u.inst m = s.inst m)
        ∧ (v.enabled = true → v.msixOn = true → v.msixOff = false → v.pba % 2 = 0 → v.bme = true → (v.msix.get msixReset 12).getLsbD 0 = false →
          ∃ l, u.tx = s.tx ++ .msix (n + 1) 0 ((v.msix.get msixReset 0).toNat + 2 ^ 32 * (v.msix.get msixReset 4).toNat)
            (v.msix.get msixReset 8) :: l))

/-- The functions of the device as the host configures and resets them (R461, R462, R464, R466, R489, R492, R493, R495).
What a reset clears rests on log entry 14, when a VF is enabled on log entry 15, requests before the device is ready on log entry 16. -/
def Obligations.FunctionEvents : Prop :=
  ∀ (s : State), s.noCause →
    (∀ n : Nat, (s.inst n).vf.enabled = true → (∀ x ∈ s.mem.leaves, x.dirty = false) → NextWith (exec (.flr n) s) fun u =>
      (u.inst n).rung = .shelved ∧ (u.inst n).faultHeld = false ∧ (u.inst n).held = [] ∧ (u.inst n).running = none
        ∧ (u.inst n).vf = { enabled := true, mse := (s.inst n).vf.mse } ∧ ∀ m, m ≠ n → u.inst m = s.inst m)
    ∧ (∀ count : Nat, (∀ x ∈ s.mem.leaves, x.dirty = false) → NextWith (exec (.vfEnableClear count) s) fun u =>
      (∀ n, count ≤ n → (s.inst n).vf.enabled = true →
        (u.inst n).rung = .shelved ∧ (u.inst n).vf.enabled = false ∧ (u.inst n).vf.mse = false ∧ (u.inst n).running = none)
      ∧ (∀ n < count, u.inst n = s.inst n) ∧ u.host.numVfs = min count s.host.numVfs)
    ∧ (s.host.linkUp = true → s.pwr ≠ 4 → ∀ (fn : Nat) (on : Bool), fn ≤ 512 →
      (s.boot.ready = true →
        (fn = 0 → NextWith (exec (.busMasterEnableChange fn on) s) (fun u => u.answer = some .done ∧ u.host.bme = on ∧ u.insts = s.insts)
          ∧ NextWith (exec (.memorySpaceEnableChange fn on) s) fun u => u.answer = some .done ∧ u.host.mse = on ∧ u.insts = s.insts
            ∧ u.regs = s.regs)
        ∧ (1 ≤ fn → (s.inst (fn - 1)).vf.enabled = true →
          NextWith (exec (.busMasterEnableChange fn on) s) (fun u => u.answer = some .done ∧ (u.inst (fn - 1)).vf.bme = on
            ∧ u.host.bme = s.host.bme ∧ ∀ m, m + 1 ≠ fn → u.inst m = s.inst m)
          ∧ NextWith (exec (.memorySpaceEnableChange fn on) s) fun u => u.answer = some .done ∧ u.regs = s.regs
            ∧ u.inst (fn - 1) = { s.inst (fn - 1) with vf := { (s.inst (fn - 1)).vf with mse := on } }
            ∧ ∀ m, m + 1 ≠ fn → u.inst m = s.inst m)
        ∧ (1 ≤ fn → (s.inst (fn - 1)).vf.enabled = false →
          NextWith (exec (.busMasterEnableChange fn on) s) (fun u => u.answer = some .unsupported ∧ u.insts = s.insts ∧ u.regs = s.regs)
          ∧ NextWith (exec (.memorySpaceEnableChange fn on) s) fun u => u.answer = some .unsupported ∧ u.insts = s.insts ∧ u.regs = s.regs))
      ∧ (s.boot.ready = false → NextWith (exec (.busMasterEnableChange fn on) s) fun u => u.answer = some .retry
          ∧ u.host.bme = s.host.bme ∧ u.insts = s.insts ∧ u.regs = s.regs))
    ∧ (∀ (p : Path) (a : RegAddr), s.hostHit p (aimOf p a) = .unsupported → NextWith (exec (.unsupportedRequest p a) s) fun u =>
      u.answer = some .unsupported ∧ u.regs = s.regs ∧ u.insts = s.insts ∧ u.pool = s.pool ∧ u.hbm = s.hbm)
    ∧ (∀ (p : Path) (a : RegAddr), s.hostHit p (aimOf p a) = .open → NextWith (exec (.poisonedWrite p a) s) fun u =>
      u.answer = some .poisoned ∧ u.regs = s.regs ∧ u.insts = s.insts ∧ u.pool = s.pool ∧ u.hbm = s.hbm)
    ∧ ∀ (lanes rate : Nat) (flit : Bool), s.boot.powered = true → s.boot.perst = false → s.boot.stopped = false →
      tb s.pins.straps 2 = false → s.pwr ≠ 4 → lanes ∈ [1, 2, 4, 8] → 1 ≤ rate → rate ≤ 6 → (rate = 6 → flit = true) →
      NextWith (exec (.linkTrain lanes rate flit) s) fun u => u.host.linkUp = true ∧ u.host.lanes = lanes ∧ u.host.rate = rate
        ∧ u.host.flit = flit ∧ OnlyReg O.HST_LINK_STATUS s u
        ∧ (u.pf O.HST_LINK_STATUS).toNat % 65536
          = min 65535 ((s.pf O.HST_LINK_STATUS).toNat % 65536 + if s.host.linkUp then 1 else 0)


/-- The power ladder and the crossings (R499, R501 to R509, R511, R512, R518, R520, R534).
The orders between states rest on log entry 45, when the register mirror stands on log entry 71. -/
def Obligations.PowerEvents : Prop :=
  ∀ (s : State), s.noCause →
    let st := O.PWR_STATUS
    (s.hostHit .pf (.pf O.PWR_CTRL) = .open →
      (s.chipFault = true → ∀ i ∈ [Instr.powerRun, .retain, .doze], NextWith (exec i s) fun u => OnlyReg st s u
        ∧ (u.pf st).toNat / 2 ^ 20 % 16 = 2 ∧ u.power = s.power)
      ∧ (s.awake = true → s.chipFault = false → NextWith (exec .powerRun s) fun u => (u.pf O.PWR_CTRL).toNat % 8 = 0 ∧ (u.pf st).toNat / 2 ^ 20 % 16 = 0
        ∧ u.power = s.power ∧ u.insts = s.insts)
      ∧ (2 ≤ s.pwr → s.power.goal = none → s.chipFault = false → s.powered 5 = false → s.ramping 5 = false →
        NextWith (exec .powerRun s) fun u => (u.pf O.PWR_CTRL).toNat % 8 = 0
        ∧ (u.pf st).toNat / 2 ^ 20 % 16 = 0 ∧ (u.pf st).getLsbD 28 = true ∧ u.power.goal = some 1 ∧ 5 ∈ u.power.queue ∧ u.insts = s.insts)
      ∧ (s.power.goal = none → s.chipFault = false → s.opBusy = false → s.pwr ≤ 1 → s.power.draining = [] → s.rampsDone = true →
        s.powered 5 = true →
        (∀ e ∈ s.insts, e.2.adm.state = 2 → e.2.rung = .shelved) →
        (∀ t : Nat, t = 2 ∨ t = 3 → NextWith (exec (if t = 2 then .retain else .doze) s) fun u => u.power.goal = some t
          ∧ (u.pf O.PWR_CTRL).toNat % 8 = t ∧ (u.pf st).toNat / 2 ^ 20 % 16 = 0 ∧ (u.pf st).getLsbD 28 = true
          ∧ (∀ d : Nat, 5 ≤ d → d ≤ 12 → s.powered d = true → u.isDraining d = true) ∧ u.insts = s.insts))
      ∧ (s.power.goal = none → s.chipFault = false → s.opBusy = false → ∀ (n : Nat) (i : Inst), (n, i) ∈ s.insts → i.adm.state = 2 →
        i.rung = .held → NextWith (exec .retain s) (fun u => OnlyReg st s u ∧ (u.pf st).toNat / 2 ^ 20 % 16 = 1 ∧ u.power = s.power)
          ∧ NextWith (exec .doze s) fun u => OnlyReg st s u ∧ (u.pf st).toNat / 2 ^ 20 % 16 = 1 ∧ u.power = s.power))
    ∧ (s.power.goal = none → s.boot.ready = true →
      (s.pwr = 0 → s.idleOk = true → NextWith (exec .idleEnter s) fun u => OnlyReg st s u ∧ u.pwr = 1 ∧ u.power = s.power)
      ∧ (s.pwr = 1 → s.idleOk = false → NextWith (exec .idleExit s) fun u => OnlyReg st s u ∧ u.pwr = 0 ∧ u.power = s.power)
      ∧ (s.pwr = 3 → s.host.linkUp = true → s.host.l12 = true → NextWith (exec .linkSleepEnter s) fun u => u.pwr = 4 ∧ u.powered 14 = false ∧ u.insts = s.insts)
      ∧ (s.pwr = 4 → NextWith (exec .linkSleepExit s) fun u => u.pwr = 3 ∧ u.powered 14 = true ∧ u.insts = s.insts))
    ∧ (∀ d : Nat, s.pfBits O.PWR_GOV_STATUS 3 0 = 0xF → d < 15 →
      (s.power.queue.find? fun x => decide (x < 5)).or s.power.queue.head? = some d →
      NextWith (exec .rampStart s) fun u => OnlyReg O.PWR_GOV_STATUS s u ∧ u.pfBits O.PWR_GOV_STATUS 3 0 = d
        ∧ u.power.queue = s.power.queue.filter (· != d))
    ∧ (∀ d : Nat, s.pfBits O.PWR_GOV_STATUS 3 0 = d → d < 15 →
      (s.power.goal = some 2 ∨ s.power.goal = some 3 ∨ (s.power.goal = some 1 ∧ s.power.queue ≠ []) →
        NextWith (exec (.rampEnd d) s) fun u => u.pfBits O.PWR_GOV_STATUS 3 0 = 0xF ∧ u.powered d = true ∧ u.insts = s.insts)
      ∧ (s.power.goal = some 1 → s.power.queue = [] → s.power.draining = [] → s.pfBits O.PWR_GOV_STATUS 7 4 = 0xF → s.power.mirrorOps = [] →
        NextWith (exec (.rampEnd d) s) fun u => u.pwr = 1 ∧ u.power.goal = none ∧ u.powered d = true ∧ (u.pf st).getLsbD 28 = false
          ∧ (u.pf st).toNat % 65536 = min 65535 ((s.pf st).toNat % 65536 + if 2 ≤ s.pwr then 1 else 0)))
    ∧ (∀ d : Nat, d < 15 → s.isDraining d = true → s.power.goal = some 2 ∨ s.power.goal = some 3 ∨ (s.power.goal = none ∧ s.mirrored = true) →
      ((∀ x ∈ s.host.descs, x.waits = true ∨ d ∉ x.domains) → NextWith (exec (.drainComplete d) s) fun u =>
        u.isDraining d = false ∧ u.powered d = false ∧ u.insts = s.insts ∧ u.host.descs = s.host.descs)
      ∧ NextWith (exec (.drainForced d) s) fun u => u.isDraining d = false ∧ u.powered d = false ∧ u.insts = s.insts
        ∧ (u.pf O.PWR_DRAIN_FORCED).toNat % 65536 = min 65535 ((s.pf O.PWR_DRAIN_FORCED).toNat % 65536 + 1)
        ∧ (u.pf O.PWR_DRAIN_FORCED).toNat / 65536 % 16 = d
        ∧ u.host.descs = s.host.descs.map fun x => if d ∈ x.domains ∧ x.waits = false ∧ x.status = 0 then { x with status := 6 } else x)
    ∧ (∀ (n : Nat) (v : Word), n < 512 → s.Direct .pf (.pf (O.CDC_INST_MODE + 4 * n)) →
      (s.inUse n = false → NextWith (exec (.cdcInstModeWrite n v) s) fun u => OnlyReg (O.CDC_INST_MODE + 4 * n) s u
        ∧ (u.pf (O.CDC_INST_MODE + 4 * n)).getLsbD 0 = v.getLsbD 0)
      ∧ (s.inUse n = true → NextWith (exec (.cdcInstModeWrite n v) s) fun u => OnlyReg O.CDC_STATUS s u
        ∧ (u.pf O.CDC_STATUS).getLsbD 1 = true))
    ∧ ∀ mv : Nat, s.boot.ready = true → 700 ≤ mv → mv ≤ 800 → mv ≤ s.pfBits O.CLK_STATUS 25 16 + 10 →
      s.pfBits O.CLK_STATUS 25 16 ≤ mv + 10 →
      NextWith (exec (.adaptiveVoltageScaling mv) s) fun u => OnlyReg O.CLK_STATUS s u ∧ u.pfBits O.CLK_STATUS 25 16 = mv

/-- The monitors and the chip causes (R522 to R525, R529, R532, R533, R540, R413, R414, R420): what each detects and the reaction.
That a row carries its sample rests on log entry 63, what a fault refuses on log entry 61. -/
def Obligations.MonitorsAndChipFaults : Prop :=
  ∀ (s : State), s.noCause →
    (s.watching = true →
      (∀ k : Nat, k < 2 → k ∉ s.safety.halted → NextWith (exec (.lockstepMismatch k) s) fun u => ChipFaulted s k u ∧ k ∈ u.safety.halted)
      ∧ (s.safety.halted = [] → NextWith (exec .mgtHeartbeat s) fun u => u.safety.beat = true ∧ u.regs = s.regs ∧ u.insts = s.insts)
      ∧ (1 ∉ s.safety.halted → NextWith (exec .mgtWatchdog s) (ChipFaulted s 2))
      ∧ (∀ (count : Nat) (lost : Bool),
        let nominal := if s.image.mode = 2 then 3200 else 4800
        let bad := 100 * count < 98 * nominal ∨ 102 * nominal < 100 * count
        (bad → s.safety.clockBad.get zeroAt 1 = 0 → NextWith (exec (.clockMonitorWindow .fclk count lost) s) fun u =>
          u.safety.clockBad.get zeroAt 1 = 1 ∧ u.regs = s.regs ∧ u.insts = s.insts)
        ∧ (bad → s.safety.clockBad.get zeroAt 1 = 1 → NextWith (exec (.clockMonitorWindow .fclk count lost) s) (ChipFaulted s 3))
        ∧ (¬ bad → NextWith (exec (.clockMonitorWindow .fclk count lost) s) fun u => u.safety.clockBad.get zeroAt 1 = 0 ∧ u.regs = s.regs)
        ∧ NextWith (exec (.clockMonitorWindow .root count false) s) (fun u => (u.pf O.CLK_STATUS).getLsbD 0 = (s.pf O.CLK_STATUS).getLsbD 0)
        ∧ (s.safety.clockBad.get zeroAt 0 < 2 → NextWith (exec (.clockMonitorWindow .root count true) s) fun u => ChipFaulted s 3 u
          ∧ (u.pf O.CLK_STATUS).getLsbD 0 = false)
        ∧ NextWith (exec (.clockMonitorWindow .audio count lost) s) fun u => (u.pf O.CLK_STATUS).getLsbD 4 = !lost
          ∧ (lost = true → u.safety.avClock = true ∧ ∀ m ∈ u.mons, m.black = true) ∧ u.insts = s.insts)
      ∧ (∀ (r : Rail) (k uv : Nat), (r = .sram ∧ k = 1) ∨ (r = .io ∧ k = 2) →
          let out := if r = .sram then uv < 760000 ∨ 840000 < uv else uv < 1600000 ∨ 3780000 < uv
          (out → s.safety.voltBad.get zeroAt k = 3 → NextWith (exec (.voltageSample r uv) s) (ChipFaulted s 4))
          ∧ (out → s.safety.voltBad.get zeroAt k < 3 → NextWith (exec (.voltageSample r uv) s) fun u =>
              u.safety.voltBad.get zeroAt k = s.safety.voltBad.get zeroAt k + 1 ∧ u.regs = s.regs ∧ u.insts = s.insts)
          ∧ (¬ out → NextWith (exec (.voltageSample r uv) s) fun u => u.safety.voltBad.get zeroAt k = 0 ∧ u.regs = s.regs
              ∧ u.insts = s.insts))
      ∧ NextWith (exec (.tempCrossing .warn) s) (fun u => u.safety.tempWarn = true ∧ u.regs = s.regs ∧ u.insts = s.insts)
      ∧ NextWith (exec (.tempCrossing .warnClears) s) (fun u => u.safety.tempWarn = false ∧ u.regs = s.regs ∧ u.insts = s.insts)
      ∧ NextWith (exec (.tempCrossing .fault) s) (ChipFaulted s 5) ∧ NextWith (exec .thermtrip s) (ChipFaulted s 6))
    ∧ (∀ i : Nat, i < 2 → s.boot.powered = true →
      (s.boot.perst = false → s.boot.ready = true → NextWith (exec (.tamperAssert i) s) fun u => u.vault = { wipeEnd := true } ∧ (u.pf O.POOL_VAULT_STATUS).getLsbD (30 + i) = true ∧ (u.pf O.POOL_VAULT_STATUS).getLsbD 16 = true
        ∧ OnlyReg O.POOL_VAULT_STATUS s u)
      ∧ (s.boot.perst = true ∨ s.boot.ready = false → NextWith (exec (.tamperAssert i) s) fun u => u.vault = s.vault
        ∧ (u.pf O.POOL_VAULT_STATUS).getLsbD (30 + i) = true ∧ u.safety.tamperNow = s.safety.tamperNow.set i true))
    ∧ (s.vault.wipeEnd = true → NextWith (exec .tamperWipeDone s) fun u => ChipFaulted s 7 u
        ∧ (u.pf O.POOL_VAULT_STATUS).getLsbD 16 = false
        ∧ (u.pf O.POOL_VAULT_STATUS).toNat / 256 % 256 = min 255 ((s.pf O.POOL_VAULT_STATUS).toNat / 256 % 256 + 1))
    ∧ ((s.pf O.HBM_STATUS).getLsbD 31 = true → NextWith (exec .hbmLinkLoss s) fun u => ChipFaulted s 9 u
        ∧ (u.pf O.HBM_STATUS).getLsbD 31 = false)
    ∧ (∀ v : Word, s.hostHit .pf (.pf O.SAF_FORCE) = .open →
      (v.toNat / 65536 ≠ 0x5AFE → NextWith (exec (.safForce v) s) fun u => OnlyReg O.SAF_CLAMP_COUNT s u
        ∧ (u.pf O.SAF_CLAMP_COUNT).toNat = min (2 ^ 32 - 1) ((s.pf O.SAF_CLAMP_COUNT).toNat + 1))
      ∧ (v.toNat / 65536 = 0x5AFE → v.getLsbD 9 = false → v.getLsbD 10 = true → NextWith (exec (.safForce v) s) (ChipFaulted s 11))
      ∧ (v.toNat / 65536 = 0x5AFE → v.getLsbD 9 = true → v.getLsbD 10 = false → s.admitted (v.toNat % 512) = true →
        (s.inst (v.toNat % 512)).faultHeld = false → NextWith (exec (.safForce v) s) fun u =>
          (u.inst (v.toNat % 512)).faultHeld = true ∧ (u.pf (O.SAF_INST_CAUSE + 4 * (v.toNat % 512))).toNat % 256 = 0x0E))
    ∧ ∀ c p : Nat, s.coreOk c = true → NextWith (exec (.coreParityFault c p) s) fun u => tb u.safety.coreNext c = true
      ∧ ∀ n i, (n, i) ∈ s.insts → s.inst n = i → i.servedBy = some c → (i.rung = .playing → i.faultHeld = false) → (u.inst n).faultHeld = true
        ∧ (u.inst n).rung ≠ .playing

/-- The scrubbers, the self-test of the Pool and the injected errors (R399, R406 to R409, R411, R418, R527).
A second INJECT_CE of a word rests on log entry 38. -/
def Obligations.MemoryChecks : Prop :=
  ∀ (s : State), s.noCause →
    (s.boot.ready = true → (∀ d : Nat, 1 ≤ d → d ≤ 4 → s.powered d = true) → s.clean →
      let r := s.pfBits O.POOL_SCRUB_STATUS 12 0
      NextWith (exec (.scrubStep []) s) (fun u => u.pfBits O.POOL_SCRUB_STATUS 12 0 = (r + 1) % 8192
        ∧ u.pfBits O.POOL_SCRUB_STATUS 31 16 = (s.pfBits O.POOL_SCRUB_STATUS 31 16 + if r = 8191 then 1 else 0) % 65536
        ∧ (∀ w, w ∈ u.mem.poolCe ↔ w ∈ s.mem.poolCe ∧ w / 2048 ≠ r) ∧ (∀ w, w ∈ u.vault.ce ↔ w ∈ s.vault.ce ∧ w / 64 ≠ s.mem.sramRow)
        ∧ u.pool = s.pool ∧ u.insts = s.insts)
      ∧ ∀ w : Nat, w / 2048 ≠ r → NextWith (exec (.scrubStep [(⟨.pool, w⟩, true)]) s) fun u => w ∈ u.mem.poolUe ∧ u.pool = s.pool
        ∧ u.insts = s.insts)
    ∧ ((s.pf O.HBM_STATUS).getLsbD 31 = true → s.powered 13 = true → s.clean → NextWith (exec .hbmPatrolScrub s) fun u =>
        u.mem.hbmCe = [] ∧ u.hbm = s.hbm ∧ u.insts = s.insts)
    ∧ (∀ g : Nat, g < 32 → s.boot.ready = true → s.scrubGap = true →
      NextWith (exec (.poolSelfTest g true) s) (fun u => u.regs = s.regs ∧ u.insts = s.insts ∧ g ∈ u.mem.marched)
        ∧ NextWith (exec (.poolSelfTest g false) s) (ChipFaulted s 10))
    ∧ (s.Direct .pf (.pf O.POOL_ECC_CTRL) → ∀ w : Nat, s.pfBits O.POOL_INJ_ADDR 26 3 = w → 8 * w < 0x6000000 → w ∉ s.mem.poolUe →
      ((∃ n, s.poolOwner (8 * w) = some n ∧ (s.inst n).rung ≠ .playing) →
        NextWith (exec .injectCe s) (fun u => (w ∉ s.mem.poolCe → w ∈ u.mem.poolCe ∧ u.mem.poolUe = s.mem.poolUe)
          ∧ (w ∈ s.mem.poolCe → u.mem = s.mem ∨ u.mem.poolUe = w :: s.mem.poolUe ∧ w ∉ u.mem.poolCe)
          ∧ u.regs = s.regs ∧ u.pool = s.pool)
        ∧ NextWith (exec .injectUe s) fun u => u.mem.poolUe = w :: s.mem.poolUe ∧ w ∉ u.mem.poolCe ∧ u.regs = s.regs ∧ u.pool = s.pool)
      ∧ ((∀ n, s.poolOwner (8 * w) = some n → (s.inst n).rung = .playing) →
        NextWith (exec .injectCe s) (fun u => u.mem = s.mem ∧ u.regs = s.regs)
        ∧ NextWith (exec .injectUe s) fun u => u.mem = s.mem ∧ u.regs = s.regs))

/-- The GPIO block (R515, R516, R546 to R551, R553): what each write does for an agent that owns a pin and for another.
The checks of owners rest on log entry 43, the levels of pins on log entry 42, when a crossing delivers on log entry 71. -/
def Obligations.GpioEvents : Prop :=
  ∀ (a : Agent) (v : Word) (s : State), s.noCause →
    (∀ p : Nat, p < 48 → PinReach s a (O.GPIO_CFG + 4 * p) →
      let c := O.GPIO_CFG + 4 * p
      let old := (s.pf c).toNat
      let locked := (s.pf (O.GPIO_LOCKED + 4 * (p / 32))).getLsbD (p % 32)
      let func := if 10 < v.toNat / 2 ^ 20 % 16 then 0 else v.toNat / 2 ^ 20 % 16
      let mine := locked = false ∧ old / 2 ^ 30 = agentCode a
      (mine → funcAllowed (agentCode a) func = true → NextWith (exec (.gpioCfgWrite a p v) s) fun u =>
        (u.pf c).toNat / 2 ^ 20 % 16 = func ∧ (u.pf c).toNat / 2 ^ 16 % 4 = v.toNat / 2 ^ 16 % 4
          ∧ (u.pf c).toNat / 2 ^ 8 % 4 = v.toNat / 2 ^ 8 % 4 ∧ (u.pf c).toNat % 4 = v.toNat % 4
          ∧ (u.pf c).toNat / 2 ^ 12 % 4 = (if v.toNat / 2 ^ 12 % 4 = 3 then (if p < 32 then 1 else 2) else v.toNat / 2 ^ 12 % 4)
          ∧ (u.pf c).toNat / 2 ^ 30 = (if a = .mgt then (if v.toNat / 2 ^ 30 = 3 then 1 else v.toNat / 2 ^ 30) else old / 2 ^ 30)
          ∧ u.insts = s.insts)
      ∧ (¬ mine ∨ funcAllowed (agentCode a) func = false → NextWith (exec (.gpioCfgWrite a p v) s) fun u => u.pf c = s.pf c
          ∧ (locked = true ∨ a = .host ∨ mine → (u.pf O.GPIO_STATUS).getLsbD 0 = true) ∧ u.insts = s.insts))
    ∧ (∀ p : Nat, p < 48 → NextWith (exec (.gpioSwitchSettle p) s) fun u => u.regs = s.regs ∧ u.insts = s.insts
        ∧ u.pins.leaving = s.pins.leaving.filter fun e => e.1 != p)
    ∧ (∀ w : Nat, w < 2 → PinReach s a (O.GPIO_TGL + 4 * w) → NextWith (exec (.gpioTgl a w v) s) fun u =>
      (∀ b : Nat, b < 32 → 32 * w + b < 48 → (u.pf (O.GPIO_OUT + 4 * w)).getLsbD b
          = ((s.pf (O.GPIO_OUT + 4 * w)).getLsbD b ^^ (v.getLsbD b && s.pinOwner (32 * w + b) == agentCode a))) ∧ u.insts = s.insts)
    ∧ (PinReach s a O.GPIO_LOCK_KEY → NextWith (exec (.gpioLockKey a v) s) fun u =>
      let k := s.lockSeq a
      let good := (k = 0 ∧ v.toNat % 65536 = 0x4C4B) ∨ (k = 1 ∧ v.toNat % 65536 = 0xB3B4)
      (good → u.lockSeq a = k + 1 ∧ u.regs = s.regs) ∧ (¬ good → u.lockSeq a = 0 ∧ (u.pf O.GPIO_STATUS).getLsbD 1 = true)
        ∧ u.insts = s.insts)
    ∧ (∀ w : Nat, w < 2 → PinReach s a (O.GPIO_LOCKED + 4 * w) → NextWith (exec (.gpioLockedWrite a w v) s) fun u =>
      u.lockSeq a = 0 ∧ u.insts = s.insts
        ∧ (s.lockSeq a = 2 → ∀ b : Nat, b < 32 → 32 * w + b < 48 → (u.pf (O.GPIO_LOCKED + 4 * w)).getLsbD b
            = ((s.pf (O.GPIO_LOCKED + 4 * w)).getLsbD b || (v.getLsbD b && s.pinOwner (32 * w + b) == agentCode a)))
        ∧ (s.lockSeq a ≠ 2 → u.pf (O.GPIO_LOCKED + 4 * w) = s.pf (O.GPIO_LOCKED + 4 * w) ∧ (u.pf O.GPIO_STATUS).getLsbD 1 = true))
    ∧ ∀ (p : Nat) (level : Bool), s.boot.powered = true → p < 48 → s.pinDrive p = none →
      let count := fun (u : State) => (u.pf (O.GPIO_EVCNT + 4 * p)).toNat % 65536
      let open' := fun (u : State) => (u.pins.cross.find? fun e => e.1 == p).map fun e => e.2
      let after := fun (closed k : Nat) (x : Option Nat) => NextWith (exec (.gpioEdge p level closed) s) fun u => u.pinLevel p = level
        ∧ tb u.pins.sampled p = level ∧ u.insts = s.insts ∧ count u = min 65535 (count s + k) ∧ open' u = x
        ∧ (0 < k → (u.pf (O.ICU_C_PENDING + 4 * ((128 + p) / 32))).getLsbD ((128 + p) % 32) = true)
      (tb s.pins.sampled p = level → after 0 0 (open' s) ∧ (open' s = some 0 → after 1 0 none)
        ∧ ∀ a, open' s = some a → 0 < a → after 1 a (some 0))
      ∧ (tb s.pins.sampled p = !level → (s.pf (O.GPIO_CFG + 4 * p)).getLsbD (if level then 16 else 17) = true →
        (open' s = none → after 0 1 (some 0))
        ∧ (∀ a, open' s = some a → (s.pf O.CDC_MODE).getLsbD 0 = true → after 0 0 (some a))
        ∧ (∀ a, open' s = some a → a < 15 → (s.pf O.CDC_MODE).getLsbD 0 = false → after 0 0 (some (a + 1)))
        ∧ (∀ a, open' s = some a → 15 ≤ a → (s.pf O.CDC_MODE).getLsbD 0 = false → after 0 0 (some a)
          ∧ NextWith (exec (.gpioEdge p level 0) s) fun u => (u.pf O.CDC_STATUS).getLsbD 0 = true))

/-- The JTAG port (R554); the order of the chain, bit p for pin p, and the captured 0 of BYPASS are the model's choices.
They and the whole instructions rest on log entry 41. -/
def Obligations.JtagInstructions : Prop :=
  ∀ (s : State), s.noCause → s.boot.powered = true →
    let quiet := fun u : State => u.regs = s.regs ∧ u.insts = s.insts
    NextWith (exec .jtagBypass s) (fun u => quiet u ∧ u.pins.jtag = .bypass)
    ∧ NextWith (exec .idcode s) (fun u => quiet u ∧ u.pins.jtag = .idcode ∧ u.pins.tdo.getLsbD 0 = true
        ∧ u.pins.tdo.toNat / 2 ^ 12 % 2 ^ 16 = 0x8512 ∧ u.pins.tdo.toNat / 2 ^ 28 = (s.pf O.HST_IDENT).toNat % 16)
    ∧ (∀ v : Nat, NextWith (exec (.samplePreload v) s) fun u => quiet u ∧ u.pins.jtag = .sample ∧ u.pins.preload = v % 2 ^ 48
        ∧ ∀ p : Nat, p < 48 → tb u.pins.capture p = s.pinLevel p)
    ∧ (s.jtagDrives = true → (∀ v : Nat, NextWith (exec (.extest v) s) fun u => quiet u ∧ u.pins.jtag = .extest
          ∧ (∀ p : Nat, p < 48 → tb u.pins.capture p = s.pinLevel p) ∧ ∀ p : Nat, p < 48 → u.pinDrive p = some (tb v p))
        ∧ NextWith (exec .clampInstruction s) (fun u => quiet u ∧ u.pins.jtag = .clamp ∧ ∀ p, u.pinDrive p = some (tb s.pins.preload p))
        ∧ NextWith (exec .highz s) fun u => quiet u ∧ u.pins.jtag = .highz ∧ ∀ p, u.pinDrive p = none)
    ∧ (s.jtagDrives = false → (∀ v : Nat, NextWith (exec (.extest v) s) fun u => quiet u ∧ u.pins.jtag = .bypass)
        ∧ NextWith (exec .clampInstruction s) (fun u => quiet u ∧ u.pins.jtag = .bypass)
        ∧ NextWith (exec .highz s) fun u => quiet u ∧ u.pins.jtag = .bypass)

/-- Power, resets and boot (R462, R542, R544, R545, R555 to R560, R575): what each leaves and what it keeps.
The order of boot rests on log entry 32, state without a reset value on log entry 10. -/
def Obligations.ResetsAndBoot : Prop :=
  ∀ (s : State), s.noCause →
    (∀ straps : Nat, s.boot.powered = false → NextWith (exec (.coldPowerUp straps) s) fun u => ResetLeaves s u ∧ u.boot.powered = true
      ∧ u.boot.perst = true ∧ u.pins.straps = straps % 8 ∧ u.safety.recs = [] ∧ u.pf O.POOL_VAULT_STATUS = 0)
    ∧ (s.boot.powered = true → NextWith (exec .powerDown s) fun u => ResetLeaves s u ∧ u.boot.powered = false)
    ∧ (s.boot.powered = true → s.boot.perst = false → NextWith (exec .perstAssert s) fun u => ResetLeaves s u ∧ u.boot.perst = true
      ∧ u.safety.recs = s.safety.recs ∧ u.pins.straps = s.pins.straps
      ∧ (u.pf O.POOL_VAULT_STATUS).toNat / 2 ^ 30 = (s.pf O.POOL_VAULT_STATUS).toNat / 2 ^ 30
      ∧ (u.pf O.POOL_VAULT_STATUS).toNat / 256 % 256 = (s.pf O.POOL_VAULT_STATUS).toNat / 256 % 256)
    ∧ (∀ straps : Nat, s.boot.powered = true → s.boot.perst = true → NextWith (exec (.perstDeassert straps) s) fun u =>
      (s.pins.hpd = [false, false] → OnlyReg O.MGT_BOOT_STATUS s u)
        ∧ (∀ k < 2, s.pins.hpd.getD k false = true → (u.pf (O.DPO_STATUS + 16 * k)).getLsbD 31 = true)
        ∧ u.insts = s.insts ∧ (u.pf O.MGT_BOOT_STATUS).toNat / 2 ^ 28 = 1 ∧ u.boot.perst = false ∧ u.boot.booting = true
        ∧ u.pins.straps = straps % 8)
    ∧ (∀ c : ResetCause, s.boot.powered = true → s.boot.perst = false → s.host.linkUp = true → NextWith (exec (.hotReset c) s) fun u =>
      u.boot.booting = true ∧ u.boot.ready = false ∧ u.insts = [] ∧ u.mram = s.mram ∧ u.fuses = s.fuses ∧ u.pins.straps = s.pins.straps
        ∧ (u.pf O.MGT_BOOT_STATUS).toNat / 2 ^ 28 = 1)
    ∧ ∀ r : BootRun, s.boot.booting = true → s.boot.recovery = false → s.boot.ready = false →
      (tb s.pins.straps 2 = true → NextWith (exec (.boot r) s) fun u => u.boot.stopped = true ∧ u.boot.ready = false ∧ u.insts = s.insts)
      ∧ (tb s.pins.straps 2 = false → r.romOk = false → NextWith (exec (.boot r) s) fun u => u.boot.stopped = true ∧ u.boot.ready = false
          ∧ u.safety.faultN = true)
      ∧ (tb s.pins.straps 2 = false → r.romOk = true → NextWith (exec (.boot r) s) fun u => u.boot.ready = true
          ∧ u.boot.recovery = (s.fwChoice == 3) ∧ u.mram.boots = s.mram.boots + 1)
      ∧ (tb s.pins.straps 2 = false → r.romOk = true → s.insts = [] → s.fuses.commits = [] → s.safety.tamperNow = [false, false] →
          r.renderers = 0 → r.comps = 0 → r.blits = 0 → r.cores = 0 → r.poolFail = 0 → r.hbmOk = true →
          NextWith (exec (.boot r) s) fun u => u.insts = [] ∧ u.image = s.image
            ∧ (u.pf O.MGT_BOOT_STATUS).toNat / 2 ^ 28 = (if s.fwChoice = 3 then 8 else 7)
            ∧ (u.pf O.MGT_BOOT_STATUS).toNat % 65536 = min r.ms 65535
            ∧ (s.fwChoice ≠ 3 → (u.pf O.MGT_BOOT_STATUS).toNat / 2 ^ 24 % 4 = s.fwChoice ∧ (u.pf O.HBM_STATUS).getLsbD 31 = true
              ∧ u.pf O.MGT_FW_SEQ = BitVec.ofNat 32 (fwSeq (s.fwCopy s.fwChoice))))

/-- The Serfer operations, phase by phase (R50, R53, R55 to R60, R66, R67, R69, R71, R72, R77, R78).
The phases that are commands of their own rest on log entry 4, what a load does to instances on log entry 29, the order of results on
log entries 30 and 31. -/
def Obligations.SerferOperations : Prop :=
  ∀ (ms avs : Nat) (o : MgtOp) (s : State), s.noCause → s.clean →
    let keep := fun (u : State) => u.insts = s.insts ∧ u.image = s.image ∧ u.fuses = s.fuses ∧ u.mram.slots = s.mram.slots
    let ended := fun (result : Nat) (u : State) => u.op = none
      ∧ u.pf O.MGT_IMG_STATUS = BitVec.ofNat 32 (result * 65536 + min (ms + o.ms) 255) ∧ (u.pf O.ICU_C_PENDING).getLsbD 0 = true
    let goes := fun (x : MgtOp) (u : State) => u.op = some { x with ms := o.ms + ms } ∧ u.insts = s.insts ∧ u.image = s.image
      ∧ u.mram.slots = s.mram.slots
    let kinds := fun (u : State) (k : Nat) => u.mram.log.head?.map (fun e => e.kind) = some k
    let entry := fun (u : State) (k a : Nat) => u.mram.log.head?.map (fun e => (e.kind, e.arg)) = some (k, a)
    let len := (s.pf O.MGT_IMG_LEN).toNat % 2 ^ 19
    let b := s.vault.staging
    let fetches := fun (run : Option (List Byte) → Result) => NextWith (run none) (fun u => ended 0x11 u ∧ keep u)
      ∧ ∀ d : List Byte, NextWith (run (some d)) fun u => goes { o with phase := 2 } u ∧ u.vault.staging = d.take len ∧ u.fuses = s.fuses
    let slotRead := fun (run : Result) =>
      ((s.slotAt o.slot).valid = false → NextWith run fun u => ended 0x12 u ∧ keep u)
      ∧ ((s.slotAt o.slot).valid = true → NextWith run fun u => goes { o with phase := 2 } u ∧ u.vault.staging = (s.slotAt o.slot).image
        ∧ u.fuses = s.fuses)
    let checks := fun (run : Result) =>
      (o.phase = 2 → checkImage b ≠ 0 → NextWith run fun u => ended (checkImage b) u ∧ keep u)
      ∧ (o.phase = 2 → checkImage b = 0 → NextWith run fun u => goes { o with phase := 3 } u ∧ u.fuses = s.fuses)
      ∧ (o.phase = 3 → checkKey s.fuses b ≠ 0 → NextWith run fun u => ended (checkKey s.fuses b) u ∧ keep u)
    (s.opRuns 1 = some o → o.phase = 1 → s.pfTraffic = true → s.workTurn o.seq = true → fetches fun d => exec (.loadHost d ms avs none) s)
    ∧ (s.opRuns 2 = some o → o.phase = 1 → slotRead (exec (.loadSlot ms avs none) s))
    ∧ (∀ k : Nat, k = 1 ∨ k = 2 → s.opRuns k = some o →
      let run := fun (cut : Option Bool) => if k = 1 then exec (.loadHost none ms avs cut) s else exec (.loadSlot ms avs cut) s
      checks (run none)
      ∧ (o.phase = 3 → checkKey s.fuses b = 0 → NextWith (run none) fun u => goes { o with phase := 4 } u ∧ u.fuses = s.fuses)
      ∧ (o.phase = 4 → checkCredits b ≠ 0 → NextWith (run none) fun u => ended (checkCredits b) u ∧ keep u)
      ∧ (o.phase = 4 → checkCredits b = 0 → NextWith (run none) fun u => goes { o with phase := 5, burns := imgRequests b } u
        ∧ u.fuses = s.fuses)
      ∧ (o.phase = 5 → o.burns = [] → NextWith (run none) fun u => goes { o with phase := 6 } u ∧ u.fuses = s.fuses)
      ∧ (∀ (kind arg : Nat) (plain : Bool) (rest : List (Nat × Nat × Bool)), o.phase = 5 → o.burns = (kind, arg, plain) :: rest →
        let allow := s.pfBits O.MGT_FUSE_ARM 3 0
        let refused := requestCause s.fuses allow b (kind, arg, plain)
        (o.burn = 0 → refused ≠ 0 → NextWith (run none) fun u => goes { o with burns := rest, burn := 0 } u ∧ u.fuses = s.fuses
          ∧ u.mram.log.head?.map (fun e => (e.kind, e.arg, e.cause)) = some (6, kind, refused))
        ∧ (o.burn = 0 → refused = 0 → NextWith (run none) fun u => goes { o with burn := 1 } u ∧ u.fuses = s.fuses ∧ entry u 4 kind)
        ∧ (o.burn = 1 → 1 ≤ allow → NextWith (run none) fun u => goes { o with burn := 2 } u ∧ u.fuses = burn s.fuses b kind arg
          ∧ u.pfBits O.MGT_FUSE_ARM 3 0 = allow - 1)
        ∧ (o.burn = 1 → ∀ landed : Bool, NextWith (run (some landed)) fun u => u.op = none ∧ u.boot.perst = true ∧ u.insts = []
          ∧ u.fuses = if landed then burn s.fuses b kind arg else s.fuses)
        ∧ (o.burn = 2 → NextWith (run none) fun u => goes { o with burns := rest, burn := 0 } u ∧ u.fuses = s.fuses ∧ entry u 5 kind))
      ∧ (o.phase = 6 → NextWith (run none) fun u => goes { o with phase := 7 } u ∧ u.fuses = s.fuses)
      ∧ (o.phase = 7 → s.loadFree = true → s.planFree = true → NextWith (run none) fun u => u.op = none ∧ u.image.id = imgId b
        ∧ u.image.mode = imgMode b ∧ (ended 0 u ∨ ended 1 u)
        ∧ (∀ n, (u.inst n).adm = (admitRecords b (admitAll b o.env)).get (fun _ => {}) n) ∧ kinds u 1 ∧ u.fuses = s.fuses))
    ∧ (s.opRuns 3 = some o → o.slot < s.mram.slots.length →
      (o.phase = 1 → s.isSealed o.slot = true → NextWith (exec (.writeSlot none ms) s) fun u => ended 0x13 u ∧ u.mram = s.mram)
      ∧ (o.phase = 1 → s.isSealed o.slot = false → s.pfTraffic = true → s.workTurn o.seq = true →
        fetches fun d => exec (.writeSlot d ms) s)
      ∧ checks (exec (.writeSlot none ms) s)
      ∧ (o.phase = 3 → checkKey s.fuses b = 0 → NextWith (exec (.writeSlot none ms) s) fun u => ended 0 u ∧ u.insts = s.insts
          ∧ u.slotAt o.slot = { image := b.take (512 + bodySize b), valid := true, writes := min 0x3FFFFFFF ((s.slotAt o.slot).writes + 1) }
          ∧ (∀ k, k ≠ o.slot → u.slotAt k = s.slotAt k) ∧ entry u 2 o.slot))
    ∧ (s.opRuns 4 = some o →
      let run := exec (.sealSlot ms none) s
      let burnt := { s.fuses with commits := s.fuses.commits ++ [⟨o.slot, imgId b, (imgHash b).take 16⟩] }
      (o.phase = 1 → slotRead run) ∧ checks run
      ∧ (o.phase = 3 → checkKey s.fuses b = 0 →
        (s.pfBits O.MGT_FUSE_ARM 3 0 = 0 → NextWith run fun u => ended 0x14 u ∧ keep u)
        ∧ (s.pfBits O.MGT_FUSE_ARM 3 0 ≠ 0 → 32 ≤ s.fuses.commits.length → NextWith run fun u => ended 0x15 u ∧ keep u)
        ∧ (s.pfBits O.MGT_FUSE_ARM 3 0 ≠ 0 → s.fuses.commits.length < 32 → NextWith run fun u => goes { o with phase := 5, burn := 1 } u
          ∧ u.fuses = s.fuses ∧ kinds u 4))
      ∧ (o.phase = 5 → o.burn = 1 → 1 ≤ s.pfBits O.MGT_FUSE_ARM 3 0 → NextWith run fun u => goes { o with burn := 2 } u ∧ u.fuses = burnt
        ∧ u.pfBits O.MGT_FUSE_ARM 3 0 = s.pfBits O.MGT_FUSE_ARM 3 0 - 1)
      ∧ (o.phase = 5 → o.burn = 2 → NextWith run fun u => ended 0 u ∧ keep u ∧ kinds u 5))
    ∧ (s.opRuns 5 = some o → s.isSealed o.slot = false → o.slot < s.mram.slots.length → NextWith (exec (.eraseSlot ms) s) fun u => ended 0 u
      ∧ u.slotAt o.slot = { image := [], valid := false, writes := (s.slotAt o.slot).writes }
      ∧ (∀ k, k ≠ o.slot → u.slotAt k = s.slotAt k) ∧ entry u 3 o.slot)
    ∧ ∀ v : Word, s.hostHit .pf (.pf O.MGT_FUSE_ARM) = .open → NextWith (exec (.fuseArm v) s) fun u => u.insts = s.insts ∧ u.fuses = s.fuses
      ∧ u.pf O.MGT_FUSE_ARM = (if v.toNat / 65536 = 0xF05E then v &&& 0xF else 0)
      ∧ (u.pf O.MGT_CLAMP_COUNT).toNat
        = min (2 ^ 32 - 1) ((s.pf O.MGT_CLAMP_COUNT).toNat + if v.toNat / 65536 = 0xF05E then 0 else 1)

/-- The commands of the management mailbox (R562, R563).
What a row carries of the host's memory rests on log entries 5 and 12. -/
def Obligations.MailboxCommands : Prop :=
  ∀ (k len : Nat) (args : List Nat) (s : State), s.noCause →
    let ended := fun (result : Nat) (u : State) => u.boot.mbx = none ∧ u.pf O.MGT_MBX_STATUS = BitVec.ofNat 32 result
      ∧ (u.pf O.MGT_MBX_M2H).getLsbD 0 = true ∧ u.insts = s.insts
    (s.mbxRuns 1 = some args → NextWith (exec .fwInfo s) fun u => ended 0 u ∧ u.boot.copyA = s.boot.copyA ∧ u.boot.copyB = s.boot.copyB
      ∧ u.pf O.MGT_MBX_RSP = BitVec.ofNat 32 (if fwValid s.boot.copyA then fwSeq s.boot.copyA else 0)
      ∧ u.pf (O.MGT_MBX_RSP + 4) = BitVec.ofNat 32 (if fwValid s.boot.copyB then fwSeq s.boot.copyB else 0)
      ∧ u.pf (O.MGT_MBX_RSP + 8) = BitVec.ofNat 32 s.mram.boots)
    ∧ (args.getD 2 0 = k → args.getD 3 0 = len → args.getD 0 0 % 8 = 0 → s.mbxRuns 2 = some args →
      (1 < k ∨ 0x200000 < len → NextWith (exec (.flashWrite none none true) s) fun u => ended 1 u ∧ u.boot.copyA = s.boot.copyA
        ∧ u.boot.copyB = s.boot.copyB)
      ∧ (k ≤ 1 → len ≤ 0x200000 →
        (s.fwProtected k = true → NextWith (exec (.flashWrite none none true) s) fun u => ended 2 u ∧ u.fwCopy k = s.fwCopy k)
        ∧ (s.fwProtected k = false → s.pfTraffic = true → s.vault.wipeEnd = false →
          NextWith (exec (.flashWrite none none true) s) (fun u => ended 4 u ∧ u.fwCopy k = s.fwCopy k)
          ∧ ∀ b : List Byte,
            (fwValid (b.take len) = false → NextWith (exec (.flashWrite (some b) none true) s) fun u => ended 3 u ∧ u.fwCopy k = s.fwCopy k)
            ∧ (fwValid (b.take len) = true → NextWith (exec (.flashWrite (some b) (some b) true) s) fun u => ended 0 u
                ∧ u.fwCopy k = b.take len ∧ u.fwCopy (1 - k) = s.fwCopy (1 - k)))))
    ∧ (args.getD 2 0 = k → s.mbxRuns 3 = some args →
      (1 < k → NextWith (exec .flashErase s) fun u => ended 1 u ∧ u.boot.copyA = s.boot.copyA ∧ u.boot.copyB = s.boot.copyB)
      ∧ (k ≤ 1 → s.fwProtected k = true → NextWith (exec .flashErase s) fun u => ended 2 u ∧ u.fwCopy k = s.fwCopy k)
      ∧ (k ≤ 1 → s.fwProtected k = false → NextWith (exec .flashErase s) fun u => ended 0 u ∧ u.fwCopy k = []
          ∧ u.fwCopy (1 - k) = s.fwCopy (1 - k)))

/-- Register accesses by address (R3 to R9, R13, R14, R105, R462, R464, R472, R505): what a write and a read by each path leave. A register
without a chapter of its own takes what its fields take, and clears as it is read; one of an instance window is the command that
writes or reads it, a store or a load of a thread, or is held for the boundary while the instance is Playing; an access that meets the
register mirror waits; and an access that R3 does not allow changes nothing.
Clamp counts rest on log entry 33, when the mirror stands on log entry 71. -/
def Obligations.RegisterAccesses : Prop :=
  ∀ (v : Word) (s : State), s.noCause →
    (∀ (r : RegSpec) (k off : Nat), findReg pfRegs off = some (r, k) → off % 4 = 0 → PlainReg r off → s.Direct .pf (.pf off) →
      NextWith (exec (.registerWrite .pf (.pf off) 4 v.toNat) s) (fun u => u.answer = some .done ∧ u.pf off = (r.write (s.pf off) v).1
        ∧ (∀ o, o ≠ off → clampOf off ≠ some o → u.pf o = s.pf o)
        ∧ (∀ c, clampOf off = some c → (u.pf c).toNat = min (2 ^ 32 - 1) ((s.pf c).toNat + (r.write (s.pf off) v).2))
        ∧ u.insts = s.insts ∧ u.pool = s.pool ∧ u.hbm = s.hbm)
      ∧ NextWith (exec (.readClear .pf (.pf off) 4) s) fun u => u.answer = some (.data (s.pfValue off).toNat) ∧ OnlyReg off s u
        ∧ u.pf off = r.readClear (s.pf off))
    ∧ (s.hostHit .pf (.pf O.HST_WD_STATUS) = .open → NextWith (exec (.registerWrite .pf (.pf O.HST_WD_STATUS) 4 v.toNat) s) fun u =>
        u.answer = some .done ∧ OnlyReg O.HST_WD_STATUS s u
          ∧ (u.pf O.HST_WD_STATUS).toNat % 65536 = (s.pf O.HST_WD_STATUS &&& ~~~v).toNat % 65536)
    ∧ (s.hostHit .pf (.pf O.HST_IDENT) = .open → NextWith (exec (.registerWrite .pf (.pf O.HST_IDENT) 4 v.toNat) s) fun u =>
        u.answer = some .done ∧ (∀ o, u.pf o = s.pf o) ∧ u.insts = s.insts)
    ∧ (s.hostHit .pf (.pf O.MGT_CLAMP_COUNT) = .open → NextWith (exec (.readClear .pf (.pf O.MGT_CLAMP_COUNT) 4) s) fun u =>
        u.answer = some (.data (s.pf O.MGT_CLAMP_COUNT).toNat) ∧ OnlyReg O.MGT_CLAMP_COUNT s u ∧ u.pf O.MGT_CLAMP_COUNT = 0)
    ∧ (∀ (p : Path) (n : Nat),
      (∀ e ∈ [(O.INST_THREAD_CTRL, Instr.threadRunWrite p n v), (O.ICU_EOI, .icuEoi p n v), (O.EVT_SW, .evtSw p n v),
          (O.VID_TIMING, .vidTimingWrite p n v), (O.CMP_COMMIT, .cmpCommit p n v), (O.BLT_SUBMIT, .bltSubmit p n v)],
        exec (.registerWrite p (.win n e.1) 4 v.toNat) s = exec e.2 s)
      ∧ (∀ e ∈ [(O.VID_VC_LO, Instr.vidVcLoRead p n), (O.AUD_SAMPLE_LO, .audSampleLoRead p n)],
        exec (.readClear p (.win n e.1) 4) s = exec e.2 s)
      ∧ ∀ j < 4, exec (.registerWrite p (.win n (O.TIM_CTRL + 32 * j)) 4 v.toNat) s = exec (.timCtrlWrite p n j v) s
        ∧ exec (.registerWrite p (.win n (O.DMA_CTRL + 32 * j)) 4 v.toNat) s = exec (.dmaStart p n j v) s
        ∧ exec (.readClear p (.win n (O.TIM_CAPT + 32 * j)) 4) s = exec (.timCaptRead p n j) s)
    ∧ (∀ (n t off : Nat) (f : FmtM), off % 4 = 0 →
      (s.nextAccess n t off (some v) = some f → exec (.registerWrite (.prog t) (.win n off) 4 v.toNat) s = exec (.sw n t f) s)
      ∧ (s.nextAccess n t off none = some f → exec (.readClear (.prog t) (.win n off) 4) s = exec (.lw n t f) s))
    ∧ (∀ (p : Path) (n off : Nat), HostReaches s p n → off % 4 = 0 → (findReg windowRegs off).isSome = true → off < 0x7000 →
      ¬ (0x5000 ≤ off ∧ off < 0x6000) →
      ((s.inst n).rung = .playing → ¬ (0x400 ≤ off ∧ off < 0x800) →
        NextWith (exec (.registerWrite p (.win n off) 4 v.toNat) s) fun u => u.answer = some .done ∧ OnlyInstance n s u
          ∧ u.inst n = { s.inst n with hostHeld := (s.inst n).hostHeld ++ [⟨off, v⟩] })
      ∧ (off ∉ [O.ICU_CLAIM, O.VID_VC_LO, O.AUD_SAMPLE_LO] → ¬ (0x400 ≤ off ∧ off < 0x800) →
        NextWith (exec (.readClear p (.win n off) 4) s) fun u => OnlyInstance n s u
          ∧ u.answer = some (.data ((s.inst n).winValue .host (s.inst n).hostPos off).toNat) ∧ (u.core n).threads = (s.core n).threads))
    ∧ (∀ (p : Path) (a : RegAddr) (width : Nat), s.hostHit p (aimOf p a) = .open → s.mirrored = true → mirrorHolds p (aimOf p a) = true →
      malformed p (aimOf p a) width = false → s.wakes (aimOf p a) width v.toNat = false →
      NextWith (exec (.registerWrite p a width v.toNat) s) fun u => u.answer = some .done ∧ u.regs = s.regs ∧ u.insts = s.insts
        ∧ u.power = { s.power with mirrorOps := s.power.mirrorOps ++ [.write p (aimOf p a) width v.toNat] })
    ∧ (∀ (p : Path) (n off k : Nat) (r : RegSpec), s.Direct p (.bar2 n off) → off % 4 = 0 → off < 0x1000 ∨ 0x10000 ≤ off → off < 0x20000 →
      findReg vfRegs off = some (r, k) → r.name ∉ ["HST_VF_RING_CTRL", "HST_VF_DB", "HST_VF_CLAMP_COUNT"] →
      NextWith (exec (.registerWrite p (.bar2 n off) 4 v.toNat) s) (fun u => u.answer = some .done ∧ OnlyInstance n s u ∧ u.core n = s.core n
        ∧ (u.inst n).vf.reg off = (r.write ((s.inst n).vf.reg off) v).1)
      ∧ NextWith (exec (.readClear p (.bar2 n off) 4) s) fun u => u.answer = some (.data (s.vfValue n off).toNat) ∧ OnlyInstance n s u
        ∧ u.core n = s.core n ∧ (u.inst n).vf.reg off = r.readClear ((s.inst n).vf.reg off))
    ∧ (∀ (p : Path) (fn width : Nat) (x : CfgItem), p = .pf ∨ p = .vf → s.host.linkUp = true → s.pwr ≠ 4 → s.boot.ready = true →
      fn = 0 ∨ (s.inst (fn - 1)).vf.enabled = true →
      NextWith (exec (.readClear p (.cfg fn x) width) s) (fun u => u.answer = some (.data (s.cfgValue fn x)) ∧ u.regs = s.regs
        ∧ u.insts = s.insts)
      ∧ (fn = 0 → x = .l12Enable → NextWith (exec (.registerWrite p (.cfg fn x) width v.toNat) s) fun u => u.answer = some .done
        ∧ u.host.l12 = v.getLsbD 0 ∧ u.insts = s.insts))
    ∧ (∀ k off : Nat, s.hostHit (.mgt k) (.pf off) = .open → off % 4 = 0 → off < 0x2000000 →
      NextWith (exec (.readClear (.mgt k) (.pf off) 4) s) fun u => u.answer = some (.data (s.gpioValue off).toNat) ∧ u.insts = s.insts)
    ∧ ∀ off width : Nat, width ≠ 4 ∨ off % 4 ≠ 0 → off < 0x380000 → off % 4096 + width ≤ 4096 → s.Direct .pf (.pf off) →
      NextWith (exec (.registerWrite .pf (.pf off) width v.toNat) s) (fun u => u.answer = some .done ∧ u.regs = s.regs
        ∧ u.insts = s.insts ∧ u.pool = s.pool ∧ u.hbm = s.hbm)
      ∧ NextWith (exec (.readClear .pf (.pf off) width) s) fun u => u.answer = some (.data 0) ∧ u.regs = s.regs ∧ u.insts = s.insts

/-- The state right after reset (R10, R66, R74, R500, R555, R556): every register at its Reset value, no image, no instance, nothing in the
memories, eight empty slots, PERST# asserted; no detected cause waits, and no command is pending.
Values that no register table gives rest on log entries 10 and 11. -/
def Obligations.ResetState : Prop :=
  (∀ off, State.reset.pf off = pfReset off) ∧ (∀ n, State.reset.inst n = {}) ∧ State.reset.image.mode = 3
    ∧ (∀ a, State.reset.pool.get zeroByte a = 0 ∧ State.reset.hbm.get zeroByte a = 0) ∧ State.reset.memWf = true
    ∧ (∀ k < 8, (State.reset.slotAt k).valid = false) ∧ State.reset.boot.perst = true ∧ State.reset.pending = [] ∧ State.reset.safe
    ∧ pfReset O.HST_IDENT = 0x85120300 ∧ pfReset O.PWR_DOMAINS = 0x7FFF ∧ pfReset O.PWR_GOV_STATUS = 0xFF
    ∧ pfReset O.MGT_BOOT_STATUS = 0x03000000

/-- Safety is kept by every step (R530, R533, R537, R538): no detected cause outlives the command that detects it, and the chip interrupt
controller has seen its level sources as they are. -/
def Obligations.EveryStepKeepsSafety : Prop := ∀ s t : State, s.safe → step s = .next t → t.safe
end

