-- ==== Sys2Proof/Laws/Ecdsa.lean ====
section
/-! SUPPORT. ECDSA with powers by digits. Modular powers by digits of 4 bits, which the kernel evaluates fast enough to check the signature of an image
(R43). -/
namespace Sys2Proof.Machine

theorem powMod_eq (m b : Nat) (hm : 1 < m) (w : Nat) : ∀ e, powMod m b e w = b ^ (e % 2 ^ w) % m := by
  induction w with
  | zero => intro e; simp [powMod, Nat.mod_one, Nat.mod_eq_of_lt hm]
  | succ w ih =>
    intro e
    have h : powMod m b e (w + 1) = (let s := powMod m b (e / 2) w * powMod m b (e / 2) w % m; if tb e 0 then s * b % m else s) := by
      unfold powMod
      rw [List.range_succ, List.foldl_append]
      have hc : ∀ (l : List Nat), (∀ i ∈ l, i < w) → ∀ a,
          l.foldl (fun a i => let s := a * a % m; if tb e (w + 1 - 1 - i) then s * b % m else s) a
            = l.foldl (fun a i => let s := a * a % m; if tb (e / 2) (w - 1 - i) then s * b % m else s) a := by
        intro l
        induction l with
        | nil => intros; rfl
        | cons i l il =>
          intro hl a
          have hi := hl i (by simp)
          have ht : tb e (w + 1 - 1 - i) = tb (e / 2) (w - 1 - i) := by
            have : w + 1 - 1 - i = w - 1 - i + 1 := by omega
            rw [this]; unfold tb bit; rw [Nat.shiftRight_eq_div_pow, Nat.shiftRight_eq_div_pow, Nat.div_div_eq_div_mul, Nat.pow_succ, Nat.mul_comm 2]
          simp only [List.foldl_cons, ht]
          exact il (fun j hj => hl j (by simp [hj])) _
      rw [hc (List.range w) (fun i hi => List.mem_range.mp hi)]
      simp only [List.foldl_cons, List.foldl_nil, show w + 1 - 1 - w = 0 by omega]
    rw [h, ih]
    have hp : e % 2 ^ (w + 1) = 2 * (e / 2 % 2 ^ w) + e % 2 := by
      rw [Nat.pow_succ, Nat.mul_comm, Nat.mod_mul]; omega
    have ht : tb e 0 = decide (e % 2 = 1) := by simp [tb, bit]; rfl
    rw [hp, ht]
    rcases Nat.mod_two_eq_zero_or_one e with h0 | h0 <;> simp only [h0]
    · simp [Nat.two_mul, Nat.pow_add, Nat.mul_mod]
    · simp [Nat.two_mul, Nat.pow_add, Nat.mul_mod]

/-- A power by base-16 digits of the exponent, the highest first. -/
def powDigits (m b : Nat) : List Nat → Nat → Nat
  | [], a => a
  | d :: l, a => powDigits m b l (Nat.mod (Nat.mul (Nat.pow a 16) (Nat.pow b d)) m)

theorem powDigits_eq (m b : Nat) (l : List Nat) : ∀ a, a % m = a →
    powDigits m b l a = a ^ 16 ^ l.length * b ^ l.foldl (fun v d => v * 16 + d) 0 % m := by
  have hf : ∀ (l : List Nat) (v : Nat), l.foldl (fun v d => v * 16 + d) v = v * 16 ^ l.length + l.foldl (fun v d => v * 16 + d) 0 := by
    intro l
    induction l with
    | nil => intro v; simp
    | cons d l il => intro v; simp only [List.foldl_cons, List.length_cons]; rw [il (v * 16 + d), il (0 * 16 + d)]; simp [Nat.pow_succ, Nat.add_mul, Nat.mul_assoc, Nat.mul_comm, Nat.add_assoc]
  induction l with
  | nil => intro a ha; simp [powDigits, ha]
  | cons d l il =>
    intro a ha
    have := il (a ^ 16 * b ^ d % m) (Nat.mod_mod _ _)
    rw [powDigits]
    refine this.trans ?_
    rw [List.foldl_cons, hf l (0 * 16 + d), List.length_cons]
    rw [Nat.mul_mod, ← Nat.pow_mod, ← Nat.mul_mod, Nat.mul_pow, ← Nat.pow_mul, ← Nat.pow_mul, Nat.pow_succ, Nat.pow_add]
    simp [Nat.mul_comm, Nat.mul_left_comm, Nat.mul_assoc]

def invDigits : List Nat :=
  [15, 15, 15, 15, 15, 15, 15, 15, 15, 15, 15, 15, 15, 15, 15, 15, 15, 15, 15, 15, 15, 15, 15, 15, 15, 15, 15, 15, 15, 15, 15, 15] ++
  [15, 15, 15, 15, 15, 15, 15, 15, 15, 15, 15, 15, 15, 15, 15, 15, 15, 15, 15, 15, 15, 15, 15, 15, 15, 15, 15, 15, 15, 15, 15, 14] ++
  [15, 15, 15, 15, 15, 15, 15, 15, 0, 0, 0, 0, 0, 0, 0, 0, 0, 0, 0, 0, 0, 0, 0, 0, 15, 15, 15, 15, 15, 15, 15, 13]
theorem invMod_p384 (a : Nat) : invMod p384 a = powDigits p384 (a % p384) invDigits 1 := by
  rw [powDigits_eq _ _ _ 1 (by decide +kernel), Nat.one_pow, Nat.one_mul, invMod, powMod_eq _ _ (by decide +kernel)]
  rw [show (p384 - 2) % 2 ^ 384 = invDigits.foldl (fun v d => v * 16 + d) 0 by decide +kernel]

/-- `ecAdd` with the inverse by digits. -/
def ecAddDigits : Option (Nat × Nat) → Option (Nat × Nat) → Option (Nat × Nat)
  | none, q => q
  | p, none => p
  | some (x1, y1), some (x2, y2) =>
    let p := p384
    if x1 = x2 && (y1 + y2) % p = 0 then none else
    let l := if x1 = x2 then (3 * x1 * x1 + (p - 3)) % p * powDigits p (2 * y1 % p % p) invDigits 1 % p
             else (y2 + p - y1) % p * powDigits p ((x2 + p - x1) % p % p) invDigits 1 % p
    let x3 := (l * l + 2 * p - x1 - x2) % p
    some (x3, (l * ((x1 + p - x3) % p) + p - y1) % p)
theorem ecAdd_digits : ecAdd = ecAddDigits := by
  funext p q
  cases p <;> cases q <;> simp only [ecAdd, ecAddDigits, invMod_p384]
/-- `ecMul` with them. -/
def ecMulDigits (k : Nat) (q : Option (Nat × Nat)) : Option (Nat × Nat) :=
  (List.range 384).foldl (fun a i => let d := ecAddDigits a a; if tb k (383 - i) then ecAddDigits d q else d) none
theorem ecMul_digits : ecMul = ecMulDigits := by
  funext k q
  unfold ecMul ecMulDigits
  rw [ecAdd_digits]

end Sys2Proof.Machine
end

