-- ==== Sys2Proof/Laws/Map.lean ====
section
/-! SUPPORT. The laws of the sparse map: a read after a write, and the canonical form that every operation keeps. -/
namespace Sys2Proof.Laws

variable {α : Type}

theorem get_put_same (d : Nat → α) (m : Map α) (k : Nat) (v : α) : (m.put k v).get d k = v := by
  induction m with
  | nil => simp [Map.put, Map.get]
  | cons e r ih =>
    obtain ⟨a, x⟩ := e
    simp only [Map.put]
    split
    · simp [Map.get]
    · split
      · simp [Map.get]
      · rename_i _ hne
        simp [Map.get, Ne.symm hne, ih]

theorem get_put_other (d : Nat → α) (m : Map α) {k j : Nat} (v : α) (h : j ≠ k) : (m.put k v).get d j = m.get d j := by
  induction m with
  | nil => simp [Map.put, Map.get, Ne.symm h]
  | cons e r ih =>
    obtain ⟨a, x⟩ := e
    simp only [Map.put]
    split
    · simp [Map.get, Ne.symm h]
    · split
      · rename_i hk
        subst hk
        simp [Map.get, Ne.symm h]
      · simp only [Map.get, ih]

theorem get_del_same (d : Nat → α) (m : Map α) (k : Nat) : (m.del k).get d k = d k := by
  induction m with
  | nil => simp [Map.del, Map.get]
  | cons e r ih =>
    obtain ⟨a, x⟩ := e
    unfold Map.del at ih ⊢
    by_cases h : a = k
    · simp [h, ih]
    · simp [h, Map.get, ih]

theorem get_del_other (d : Nat → α) (m : Map α) {k j : Nat} (h : j ≠ k) : (m.del k).get d j = m.get d j := by
  induction m with
  | nil => simp [Map.del, Map.get]
  | cons e r ih =>
    obtain ⟨a, x⟩ := e
    unfold Map.del at ih ⊢
    by_cases ha : a = k
    · subst ha
      simp [Map.get, Ne.symm h, ih]
    · simp [ha, Map.get, ih]

/-- A key reads as what was written to it last. -/
@[simp] theorem get_set_same [DecidableEq α] (d : Nat → α) (m : Map α) (k : Nat) (v : α) : (m.set d k v).get d k = v := by
  unfold Map.set
  split
  · rename_i h; rw [get_del_same, h]
  · exact get_put_same d m k v

/-- A write leaves every other key alone. -/
theorem get_set_other [DecidableEq α] (d : Nat → α) (m : Map α) {k j : Nat} (v : α) (h : j ≠ k) :
    (m.set d k v).get d j = m.get d j := by
  unfold Map.set
  split
  · exact get_del_other d m h
  · exact get_put_other d m v h

/-- The two read laws as one. -/
theorem get_set [DecidableEq α] (d : Nat → α) (m : Map α) (k j : Nat) (v : α) :
    (m.set d k v).get d j = if j = k then v else m.get d j := by
  split
  · rename_i h; subst h; exact get_set_same d m j v
  · rename_i h; exact get_set_other d m v h

theorem sortedFrom_mono (m : Map α) {lo lo' : Nat} (h : lo' ≤ lo) (hs : Map.sortedFrom lo m = true) :
    Map.sortedFrom lo' m = true := by
  cases m with
  | nil => rfl
  | cons e r =>
    simp only [Map.sortedFrom, Bool.and_eq_true, decide_eq_true_eq] at hs ⊢
    exact ⟨by omega, hs.2⟩

theorem sortedFrom_put (m : Map α) (k : Nat) (v : α) (lo : Nat) (hk : lo ≤ k) (hs : Map.sortedFrom lo m = true) :
    Map.sortedFrom lo (m.put k v) = true := by
  induction m generalizing lo with
  | nil => simp [Map.put, Map.sortedFrom, hk]
  | cons e r ih =>
    obtain ⟨a, x⟩ := e
    simp only [Map.sortedFrom, Bool.and_eq_true, decide_eq_true_eq] at hs
    simp only [Map.put]
    split
    · rename_i h
      simp only [Map.sortedFrom, Bool.and_eq_true, decide_eq_true_eq]
      exact ⟨hk, by omega, hs.2⟩
    · split
      · rename_i _ h
        subst h
        simp only [Map.sortedFrom, Bool.and_eq_true, decide_eq_true_eq]
        exact ⟨hk, hs.2⟩
      · rename_i h1 h2
        simp only [Map.sortedFrom, Bool.and_eq_true, decide_eq_true_eq]
        exact ⟨hs.1, ih (a + 1) (by omega) hs.2⟩

theorem sortedFrom_filter (m : Map α) (p : Nat × α → Bool) (lo : Nat) (hs : Map.sortedFrom lo m = true) :
    Map.sortedFrom lo (m.filter p) = true := by
  induction m generalizing lo with
  | nil => simpa using hs
  | cons e r ih =>
    obtain ⟨a, x⟩ := e
    simp only [Map.sortedFrom, Bool.and_eq_true, decide_eq_true_eq] at hs
    have hr := ih (a + 1) hs.2
    by_cases h : p (a, x) = true
    · simp only [List.filter_cons_of_pos h, Map.sortedFrom, Bool.and_eq_true, decide_eq_true_eq]
      exact ⟨hs.1, hr⟩
    · simp only [List.filter_cons_of_neg h]
      exact sortedFrom_mono _ (by omega) hr

theorem mem_put {m : Map α} {k : Nat} {v : α} {e : Nat × α} (h : e ∈ m.put k v) : e = (k, v) ∨ e ∈ m := by
  induction m with
  | nil => simpa [Map.put] using h
  | cons b r ih =>
    obtain ⟨a, x⟩ := b
    simp only [Map.put] at h
    split at h
    · exact List.mem_cons.mp h
    · split at h
      · exact (List.mem_cons.mp h).imp id (List.mem_cons_of_mem _)
      · simp only [List.mem_cons] at h ⊢
        rcases h with h | h
        · exact .inr (.inl h)
        · rcases ih h with h | h
          · exact .inl h
          · exact .inr (.inr h)

/-- Any selection of entries keeps the canonical form. -/
theorem wf_filter [DecidableEq α] {d : Nat → α} {m : Map α} (p : Nat × α → Bool) (h : Map.wf d m = true) :
    Map.wf d (m.filter p) = true := by
  simp only [Map.wf, Bool.and_eq_true, List.all_eq_true] at h ⊢
  exact ⟨sortedFrom_filter m p 0 h.1, fun e he => h.2 e (List.mem_filter.mp he).1⟩

/-- A write keeps the canonical form. -/
theorem wf_set [DecidableEq α] {d : Nat → α} {m : Map α} (k : Nat) (v : α) (h : Map.wf d m = true) :
    Map.wf d (m.set d k v) = true := by
  unfold Map.set
  split
  · exact wf_filter _ h
  · rename_i hv
    simp only [Map.wf, Bool.and_eq_true, List.all_eq_true] at h ⊢
    refine ⟨sortedFrom_put m k v 0 (by omega) h.1, fun e he => ?_⟩
    rcases mem_put he with rfl | he
    · simpa using hv
    · exact h.2 e he

end Sys2Proof.Laws
end

