-- ==== Sys2Proof/Laws/State.lean ====
section
/-! SUPPORT. What each update of the state leaves alone, field by field, and what the named reads give after it. -/
namespace Sys2Proof.Laws
open Sys2Proof.Machine

variable (s : State)

@[simp] theorem setInst_pending (n : Nat) (i : Inst) : (s.setInst n i).pending = s.pending := rfl
@[simp] theorem setInst_wall (n : Nat) (i : Inst) : (s.setInst n i).wall = s.wall := rfl
@[simp] theorem setInst_regs (n : Nat) (i : Inst) : (s.setInst n i).regs = s.regs := rfl
@[simp] theorem setInst_image (n : Nat) (i : Inst) : (s.setInst n i).image = s.image := rfl
@[simp] theorem setInst_op (n : Nat) (i : Inst) : (s.setInst n i).op = s.op := rfl
@[simp] theorem setInst_mram (n : Nat) (i : Inst) : (s.setInst n i).mram = s.mram := rfl
@[simp] theorem setInst_fuses (n : Nat) (i : Inst) : (s.setInst n i).fuses = s.fuses := rfl
@[simp] theorem setInst_vault (n : Nat) (i : Inst) : (s.setInst n i).vault = s.vault := rfl
@[simp] theorem setInst_boot (n : Nat) (i : Inst) : (s.setInst n i).boot = s.boot := rfl
@[simp] theorem setInst_power (n : Nat) (i : Inst) : (s.setInst n i).power = s.power := rfl
@[simp] theorem setInst_safety (n : Nat) (i : Inst) : (s.setInst n i).safety = s.safety := rfl
@[simp] theorem setInst_pins (n : Nat) (i : Inst) : (s.setInst n i).pins = s.pins := rfl
@[simp] theorem setInst_host (n : Nat) (i : Inst) : (s.setInst n i).host = s.host := rfl
@[simp] theorem setInst_eng (n : Nat) (i : Inst) : (s.setInst n i).eng = s.eng := rfl
@[simp] theorem setInst_mem (n : Nat) (i : Inst) : (s.setInst n i).mem = s.mem := rfl
@[simp] theorem setInst_mons (n : Nat) (i : Inst) : (s.setInst n i).mons = s.mons := rfl
@[simp] theorem setInst_pool (n : Nat) (i : Inst) : (s.setInst n i).pool = s.pool := rfl
@[simp] theorem setInst_hbm (n : Nat) (i : Inst) : (s.setInst n i).hbm = s.hbm := rfl
@[simp] theorem setInst_tx (n : Nat) (i : Inst) : (s.setInst n i).tx = s.tx := rfl
@[simp] theorem setInst_answer (n : Nat) (i : Inst) : (s.setInst n i).answer = s.answer := rfl
@[simp] theorem setInst_free (n : Nat) (i : Inst) : (s.setInst n i).free = s.free := rfl

@[simp] theorem modInst_pending (n : Nat) (f : Inst → Inst) : (s.modInst n f).pending = s.pending := rfl
@[simp] theorem modInst_wall (n : Nat) (f : Inst → Inst) : (s.modInst n f).wall = s.wall := rfl
@[simp] theorem modInst_regs (n : Nat) (f : Inst → Inst) : (s.modInst n f).regs = s.regs := rfl
@[simp] theorem modInst_image (n : Nat) (f : Inst → Inst) : (s.modInst n f).image = s.image := rfl
@[simp] theorem modInst_op (n : Nat) (f : Inst → Inst) : (s.modInst n f).op = s.op := rfl
@[simp] theorem modInst_mram (n : Nat) (f : Inst → Inst) : (s.modInst n f).mram = s.mram := rfl
@[simp] theorem modInst_fuses (n : Nat) (f : Inst → Inst) : (s.modInst n f).fuses = s.fuses := rfl
@[simp] theorem modInst_vault (n : Nat) (f : Inst → Inst) : (s.modInst n f).vault = s.vault := rfl
@[simp] theorem modInst_boot (n : Nat) (f : Inst → Inst) : (s.modInst n f).boot = s.boot := rfl
@[simp] theorem modInst_power (n : Nat) (f : Inst → Inst) : (s.modInst n f).power = s.power := rfl
@[simp] theorem modInst_safety (n : Nat) (f : Inst → Inst) : (s.modInst n f).safety = s.safety := rfl
@[simp] theorem modInst_pins (n : Nat) (f : Inst → Inst) : (s.modInst n f).pins = s.pins := rfl
@[simp] theorem modInst_host (n : Nat) (f : Inst → Inst) : (s.modInst n f).host = s.host := rfl
@[simp] theorem modInst_eng (n : Nat) (f : Inst → Inst) : (s.modInst n f).eng = s.eng := rfl
@[simp] theorem modInst_mem (n : Nat) (f : Inst → Inst) : (s.modInst n f).mem = s.mem := rfl
@[simp] theorem modInst_mons (n : Nat) (f : Inst → Inst) : (s.modInst n f).mons = s.mons := rfl
@[simp] theorem modInst_pool (n : Nat) (f : Inst → Inst) : (s.modInst n f).pool = s.pool := rfl
@[simp] theorem modInst_hbm (n : Nat) (f : Inst → Inst) : (s.modInst n f).hbm = s.hbm := rfl
@[simp] theorem modInst_tx (n : Nat) (f : Inst → Inst) : (s.modInst n f).tx = s.tx := rfl
@[simp] theorem modInst_answer (n : Nat) (f : Inst → Inst) : (s.modInst n f).answer = s.answer := rfl
@[simp] theorem modInst_free (n : Nat) (f : Inst → Inst) : (s.modInst n f).free = s.free := rfl

@[simp] theorem modCore_pending (n : Nat) (f : Core → Core) : (s.modCore n f).pending = s.pending := rfl
@[simp] theorem modCore_wall (n : Nat) (f : Core → Core) : (s.modCore n f).wall = s.wall := rfl
@[simp] theorem modCore_regs (n : Nat) (f : Core → Core) : (s.modCore n f).regs = s.regs := rfl
@[simp] theorem modCore_image (n : Nat) (f : Core → Core) : (s.modCore n f).image = s.image := rfl
@[simp] theorem modCore_op (n : Nat) (f : Core → Core) : (s.modCore n f).op = s.op := rfl
@[simp] theorem modCore_mram (n : Nat) (f : Core → Core) : (s.modCore n f).mram = s.mram := rfl
@[simp] theorem modCore_fuses (n : Nat) (f : Core → Core) : (s.modCore n f).fuses = s.fuses := rfl
@[simp] theorem modCore_vault (n : Nat) (f : Core → Core) : (s.modCore n f).vault = s.vault := rfl
@[simp] theorem modCore_boot (n : Nat) (f : Core → Core) : (s.modCore n f).boot = s.boot := rfl
@[simp] theorem modCore_power (n : Nat) (f : Core → Core) : (s.modCore n f).power = s.power := rfl
@[simp] theorem modCore_safety (n : Nat) (f : Core → Core) : (s.modCore n f).safety = s.safety := rfl
@[simp] theorem modCore_pins (n : Nat) (f : Core → Core) : (s.modCore n f).pins = s.pins := rfl
@[simp] theorem modCore_host (n : Nat) (f : Core → Core) : (s.modCore n f).host = s.host := rfl
@[simp] theorem modCore_eng (n : Nat) (f : Core → Core) : (s.modCore n f).eng = s.eng := rfl
@[simp] theorem modCore_mem (n : Nat) (f : Core → Core) : (s.modCore n f).mem = s.mem := rfl
@[simp] theorem modCore_mons (n : Nat) (f : Core → Core) : (s.modCore n f).mons = s.mons := rfl
@[simp] theorem modCore_pool (n : Nat) (f : Core → Core) : (s.modCore n f).pool = s.pool := rfl
@[simp] theorem modCore_hbm (n : Nat) (f : Core → Core) : (s.modCore n f).hbm = s.hbm := rfl
@[simp] theorem modCore_tx (n : Nat) (f : Core → Core) : (s.modCore n f).tx = s.tx := rfl
@[simp] theorem modCore_answer (n : Nat) (f : Core → Core) : (s.modCore n f).answer = s.answer := rfl
@[simp] theorem modCore_free (n : Nat) (f : Core → Core) : (s.modCore n f).free = s.free := rfl

@[simp] theorem modVf_pending (n : Nat) (f : Vf → Vf) : (s.modVf n f).pending = s.pending := rfl
@[simp] theorem modVf_wall (n : Nat) (f : Vf → Vf) : (s.modVf n f).wall = s.wall := rfl
@[simp] theorem modVf_regs (n : Nat) (f : Vf → Vf) : (s.modVf n f).regs = s.regs := rfl
@[simp] theorem modVf_image (n : Nat) (f : Vf → Vf) : (s.modVf n f).image = s.image := rfl
@[simp] theorem modVf_op (n : Nat) (f : Vf → Vf) : (s.modVf n f).op = s.op := rfl
@[simp] theorem modVf_mram (n : Nat) (f : Vf → Vf) : (s.modVf n f).mram = s.mram := rfl
@[simp] theorem modVf_fuses (n : Nat) (f : Vf → Vf) : (s.modVf n f).fuses = s.fuses := rfl
@[simp] theorem modVf_vault (n : Nat) (f : Vf → Vf) : (s.modVf n f).vault = s.vault := rfl
@[simp] theorem modVf_boot (n : Nat) (f : Vf → Vf) : (s.modVf n f).boot = s.boot := rfl
@[simp] theorem modVf_power (n : Nat) (f : Vf → Vf) : (s.modVf n f).power = s.power := rfl
@[simp] theorem modVf_safety (n : Nat) (f : Vf → Vf) : (s.modVf n f).safety = s.safety := rfl
@[simp] theorem modVf_pins (n : Nat) (f : Vf → Vf) : (s.modVf n f).pins = s.pins := rfl
@[simp] theorem modVf_host (n : Nat) (f : Vf → Vf) : (s.modVf n f).host = s.host := rfl
@[simp] theorem modVf_eng (n : Nat) (f : Vf → Vf) : (s.modVf n f).eng = s.eng := rfl
@[simp] theorem modVf_mem (n : Nat) (f : Vf → Vf) : (s.modVf n f).mem = s.mem := rfl
@[simp] theorem modVf_mons (n : Nat) (f : Vf → Vf) : (s.modVf n f).mons = s.mons := rfl
@[simp] theorem modVf_pool (n : Nat) (f : Vf → Vf) : (s.modVf n f).pool = s.pool := rfl
@[simp] theorem modVf_hbm (n : Nat) (f : Vf → Vf) : (s.modVf n f).hbm = s.hbm := rfl
@[simp] theorem modVf_tx (n : Nat) (f : Vf → Vf) : (s.modVf n f).tx = s.tx := rfl
@[simp] theorem modVf_answer (n : Nat) (f : Vf → Vf) : (s.modVf n f).answer = s.answer := rfl
@[simp] theorem modVf_free (n : Nat) (f : Vf → Vf) : (s.modVf n f).free = s.free := rfl

@[simp] theorem setPf_pending (o : Nat) (w : Word) : (s.setPf o w).pending = s.pending := rfl
@[simp] theorem setPf_wall (o : Nat) (w : Word) : (s.setPf o w).wall = s.wall := rfl
@[simp] theorem setPf_insts (o : Nat) (w : Word) : (s.setPf o w).insts = s.insts := rfl
@[simp] theorem setPf_image (o : Nat) (w : Word) : (s.setPf o w).image = s.image := rfl
@[simp] theorem setPf_op (o : Nat) (w : Word) : (s.setPf o w).op = s.op := rfl
@[simp] theorem setPf_mram (o : Nat) (w : Word) : (s.setPf o w).mram = s.mram := rfl
@[simp] theorem setPf_fuses (o : Nat) (w : Word) : (s.setPf o w).fuses = s.fuses := rfl
@[simp] theorem setPf_vault (o : Nat) (w : Word) : (s.setPf o w).vault = s.vault := rfl
@[simp] theorem setPf_boot (o : Nat) (w : Word) : (s.setPf o w).boot = s.boot := rfl
@[simp] theorem setPf_power (o : Nat) (w : Word) : (s.setPf o w).power = s.power := rfl
@[simp] theorem setPf_safety (o : Nat) (w : Word) : (s.setPf o w).safety = s.safety := rfl
@[simp] theorem setPf_pins (o : Nat) (w : Word) : (s.setPf o w).pins = s.pins := rfl
@[simp] theorem setPf_host (o : Nat) (w : Word) : (s.setPf o w).host = s.host := rfl
@[simp] theorem setPf_eng (o : Nat) (w : Word) : (s.setPf o w).eng = s.eng := rfl
@[simp] theorem setPf_mem (o : Nat) (w : Word) : (s.setPf o w).mem = s.mem := rfl
@[simp] theorem setPf_mons (o : Nat) (w : Word) : (s.setPf o w).mons = s.mons := rfl
@[simp] theorem setPf_pool (o : Nat) (w : Word) : (s.setPf o w).pool = s.pool := rfl
@[simp] theorem setPf_hbm (o : Nat) (w : Word) : (s.setPf o w).hbm = s.hbm := rfl
@[simp] theorem setPf_tx (o : Nat) (w : Word) : (s.setPf o w).tx = s.tx := rfl
@[simp] theorem setPf_answer (o : Nat) (w : Word) : (s.setPf o w).answer = s.answer := rfl
@[simp] theorem setPf_free (o : Nat) (w : Word) : (s.setPf o w).free = s.free := rfl

@[simp] theorem modPf_pending (o : Nat) (f : Word → Word) : (s.modPf o f).pending = s.pending := rfl
@[simp] theorem modPf_wall (o : Nat) (f : Word → Word) : (s.modPf o f).wall = s.wall := rfl
@[simp] theorem modPf_insts (o : Nat) (f : Word → Word) : (s.modPf o f).insts = s.insts := rfl
@[simp] theorem modPf_image (o : Nat) (f : Word → Word) : (s.modPf o f).image = s.image := rfl
@[simp] theorem modPf_op (o : Nat) (f : Word → Word) : (s.modPf o f).op = s.op := rfl
@[simp] theorem modPf_mram (o : Nat) (f : Word → Word) : (s.modPf o f).mram = s.mram := rfl
@[simp] theorem modPf_fuses (o : Nat) (f : Word → Word) : (s.modPf o f).fuses = s.fuses := rfl
@[simp] theorem modPf_vault (o : Nat) (f : Word → Word) : (s.modPf o f).vault = s.vault := rfl
@[simp] theorem modPf_boot (o : Nat) (f : Word → Word) : (s.modPf o f).boot = s.boot := rfl
@[simp] theorem modPf_power (o : Nat) (f : Word → Word) : (s.modPf o f).power = s.power := rfl
@[simp] theorem modPf_safety (o : Nat) (f : Word → Word) : (s.modPf o f).safety = s.safety := rfl
@[simp] theorem modPf_pins (o : Nat) (f : Word → Word) : (s.modPf o f).pins = s.pins := rfl
@[simp] theorem modPf_host (o : Nat) (f : Word → Word) : (s.modPf o f).host = s.host := rfl
@[simp] theorem modPf_eng (o : Nat) (f : Word → Word) : (s.modPf o f).eng = s.eng := rfl
@[simp] theorem modPf_mem (o : Nat) (f : Word → Word) : (s.modPf o f).mem = s.mem := rfl
@[simp] theorem modPf_mons (o : Nat) (f : Word → Word) : (s.modPf o f).mons = s.mons := rfl
@[simp] theorem modPf_pool (o : Nat) (f : Word → Word) : (s.modPf o f).pool = s.pool := rfl
@[simp] theorem modPf_hbm (o : Nat) (f : Word → Word) : (s.modPf o f).hbm = s.hbm := rfl
@[simp] theorem modPf_tx (o : Nat) (f : Word → Word) : (s.modPf o f).tx = s.tx := rfl
@[simp] theorem modPf_answer (o : Nat) (f : Word → Word) : (s.modPf o f).answer = s.answer := rfl
@[simp] theorem modPf_free (o : Nat) (f : Word → Word) : (s.modPf o f).free = s.free := rfl

@[simp] theorem pfSet_pending (o hi lo v : Nat) : (s.pfSet o hi lo v).pending = s.pending := rfl
@[simp] theorem pfSet_wall (o hi lo v : Nat) : (s.pfSet o hi lo v).wall = s.wall := rfl
@[simp] theorem pfSet_insts (o hi lo v : Nat) : (s.pfSet o hi lo v).insts = s.insts := rfl
@[simp] theorem pfSet_image (o hi lo v : Nat) : (s.pfSet o hi lo v).image = s.image := rfl
@[simp] theorem pfSet_op (o hi lo v : Nat) : (s.pfSet o hi lo v).op = s.op := rfl
@[simp] theorem pfSet_mram (o hi lo v : Nat) : (s.pfSet o hi lo v).mram = s.mram := rfl
@[simp] theorem pfSet_fuses (o hi lo v : Nat) : (s.pfSet o hi lo v).fuses = s.fuses := rfl
@[simp] theorem pfSet_vault (o hi lo v : Nat) : (s.pfSet o hi lo v).vault = s.vault := rfl
@[simp] theorem pfSet_boot (o hi lo v : Nat) : (s.pfSet o hi lo v).boot = s.boot := rfl
@[simp] theorem pfSet_power (o hi lo v : Nat) : (s.pfSet o hi lo v).power = s.power := rfl
@[simp] theorem pfSet_safety (o hi lo v : Nat) : (s.pfSet o hi lo v).safety = s.safety := rfl
@[simp] theorem pfSet_pins (o hi lo v : Nat) : (s.pfSet o hi lo v).pins = s.pins := rfl
@[simp] theorem pfSet_host (o hi lo v : Nat) : (s.pfSet o hi lo v).host = s.host := rfl
@[simp] theorem pfSet_eng (o hi lo v : Nat) : (s.pfSet o hi lo v).eng = s.eng := rfl
@[simp] theorem pfSet_mem (o hi lo v : Nat) : (s.pfSet o hi lo v).mem = s.mem := rfl
@[simp] theorem pfSet_mons (o hi lo v : Nat) : (s.pfSet o hi lo v).mons = s.mons := rfl
@[simp] theorem pfSet_pool (o hi lo v : Nat) : (s.pfSet o hi lo v).pool = s.pool := rfl
@[simp] theorem pfSet_hbm (o hi lo v : Nat) : (s.pfSet o hi lo v).hbm = s.hbm := rfl
@[simp] theorem pfSet_tx (o hi lo v : Nat) : (s.pfSet o hi lo v).tx = s.tx := rfl
@[simp] theorem pfSet_answer (o hi lo v : Nat) : (s.pfSet o hi lo v).answer = s.answer := rfl
@[simp] theorem pfSet_free (o hi lo v : Nat) : (s.pfSet o hi lo v).free = s.free := rfl

@[simp] theorem pfOr_pending (o m : Nat) : (s.pfOr o m).pending = s.pending := rfl
@[simp] theorem pfOr_wall (o m : Nat) : (s.pfOr o m).wall = s.wall := rfl
@[simp] theorem pfOr_insts (o m : Nat) : (s.pfOr o m).insts = s.insts := rfl
@[simp] theorem pfOr_image (o m : Nat) : (s.pfOr o m).image = s.image := rfl
@[simp] theorem pfOr_op (o m : Nat) : (s.pfOr o m).op = s.op := rfl
@[simp] theorem pfOr_mram (o m : Nat) : (s.pfOr o m).mram = s.mram := rfl
@[simp] theorem pfOr_fuses (o m : Nat) : (s.pfOr o m).fuses = s.fuses := rfl
@[simp] theorem pfOr_vault (o m : Nat) : (s.pfOr o m).vault = s.vault := rfl
@[simp] theorem pfOr_boot (o m : Nat) : (s.pfOr o m).boot = s.boot := rfl
@[simp] theorem pfOr_power (o m : Nat) : (s.pfOr o m).power = s.power := rfl
@[simp] theorem pfOr_safety (o m : Nat) : (s.pfOr o m).safety = s.safety := rfl
@[simp] theorem pfOr_pins (o m : Nat) : (s.pfOr o m).pins = s.pins := rfl
@[simp] theorem pfOr_host (o m : Nat) : (s.pfOr o m).host = s.host := rfl
@[simp] theorem pfOr_eng (o m : Nat) : (s.pfOr o m).eng = s.eng := rfl
@[simp] theorem pfOr_mem (o m : Nat) : (s.pfOr o m).mem = s.mem := rfl
@[simp] theorem pfOr_mons (o m : Nat) : (s.pfOr o m).mons = s.mons := rfl
@[simp] theorem pfOr_pool (o m : Nat) : (s.pfOr o m).pool = s.pool := rfl
@[simp] theorem pfOr_hbm (o m : Nat) : (s.pfOr o m).hbm = s.hbm := rfl
@[simp] theorem pfOr_tx (o m : Nat) : (s.pfOr o m).tx = s.tx := rfl
@[simp] theorem pfOr_answer (o m : Nat) : (s.pfOr o m).answer = s.answer := rfl
@[simp] theorem pfOr_free (o m : Nat) : (s.pfOr o m).free = s.free := rfl

@[simp] theorem pfCount_pending (o hi lo k : Nat) : (s.pfCount o hi lo k).pending = s.pending := rfl
@[simp] theorem pfCount_wall (o hi lo k : Nat) : (s.pfCount o hi lo k).wall = s.wall := rfl
@[simp] theorem pfCount_insts (o hi lo k : Nat) : (s.pfCount o hi lo k).insts = s.insts := rfl
@[simp] theorem pfCount_image (o hi lo k : Nat) : (s.pfCount o hi lo k).image = s.image := rfl
@[simp] theorem pfCount_op (o hi lo k : Nat) : (s.pfCount o hi lo k).op = s.op := rfl
@[simp] theorem pfCount_mram (o hi lo k : Nat) : (s.pfCount o hi lo k).mram = s.mram := rfl
@[simp] theorem pfCount_fuses (o hi lo k : Nat) : (s.pfCount o hi lo k).fuses = s.fuses := rfl
@[simp] theorem pfCount_vault (o hi lo k : Nat) : (s.pfCount o hi lo k).vault = s.vault := rfl
@[simp] theorem pfCount_boot (o hi lo k : Nat) : (s.pfCount o hi lo k).boot = s.boot := rfl
@[simp] theorem pfCount_power (o hi lo k : Nat) : (s.pfCount o hi lo k).power = s.power := rfl
@[simp] theorem pfCount_safety (o hi lo k : Nat) : (s.pfCount o hi lo k).safety = s.safety := rfl
@[simp] theorem pfCount_pins (o hi lo k : Nat) : (s.pfCount o hi lo k).pins = s.pins := rfl
@[simp] theorem pfCount_host (o hi lo k : Nat) : (s.pfCount o hi lo k).host = s.host := rfl
@[simp] theorem pfCount_eng (o hi lo k : Nat) : (s.pfCount o hi lo k).eng = s.eng := rfl
@[simp] theorem pfCount_mem (o hi lo k : Nat) : (s.pfCount o hi lo k).mem = s.mem := rfl
@[simp] theorem pfCount_mons (o hi lo k : Nat) : (s.pfCount o hi lo k).mons = s.mons := rfl
@[simp] theorem pfCount_pool (o hi lo k : Nat) : (s.pfCount o hi lo k).pool = s.pool := rfl
@[simp] theorem pfCount_hbm (o hi lo k : Nat) : (s.pfCount o hi lo k).hbm = s.hbm := rfl
@[simp] theorem pfCount_tx (o hi lo k : Nat) : (s.pfCount o hi lo k).tx = s.tx := rfl
@[simp] theorem pfCount_answer (o hi lo k : Nat) : (s.pfCount o hi lo k).answer = s.answer := rfl
@[simp] theorem pfCount_free (o hi lo k : Nat) : (s.pfCount o hi lo k).free = s.free := rfl

@[simp] theorem tick_pending (k : Nat) : (s.tick k).pending = s.pending := rfl
@[simp] theorem tick_regs (k : Nat) : (s.tick k).regs = s.regs := rfl
@[simp] theorem tick_insts (k : Nat) : (s.tick k).insts = s.insts := rfl
@[simp] theorem tick_image (k : Nat) : (s.tick k).image = s.image := rfl
@[simp] theorem tick_op (k : Nat) : (s.tick k).op = s.op := rfl
@[simp] theorem tick_mram (k : Nat) : (s.tick k).mram = s.mram := rfl
@[simp] theorem tick_fuses (k : Nat) : (s.tick k).fuses = s.fuses := rfl
@[simp] theorem tick_vault (k : Nat) : (s.tick k).vault = s.vault := rfl
@[simp] theorem tick_boot (k : Nat) : (s.tick k).boot = s.boot := rfl
@[simp] theorem tick_power (k : Nat) : (s.tick k).power = s.power := rfl
@[simp] theorem tick_safety (k : Nat) : (s.tick k).safety = s.safety := rfl
@[simp] theorem tick_pins (k : Nat) : (s.tick k).pins = s.pins := rfl
@[simp] theorem tick_host (k : Nat) : (s.tick k).host = s.host := rfl
@[simp] theorem tick_eng (k : Nat) : (s.tick k).eng = s.eng := rfl
@[simp] theorem tick_mem (k : Nat) : (s.tick k).mem = s.mem := rfl
@[simp] theorem tick_mons (k : Nat) : (s.tick k).mons = s.mons := rfl
@[simp] theorem tick_pool (k : Nat) : (s.tick k).pool = s.pool := rfl
@[simp] theorem tick_hbm (k : Nat) : (s.tick k).hbm = s.hbm := rfl
@[simp] theorem tick_tx (k : Nat) : (s.tick k).tx = s.tx := rfl
@[simp] theorem tick_answer (k : Nat) : (s.tick k).answer = s.answer := rfl
@[simp] theorem tick_free (k : Nat) : (s.tick k).free = s.free := rfl

@[simp] theorem send_pending (x : Sent) : (s.send x).pending = s.pending := rfl
@[simp] theorem send_wall (x : Sent) : (s.send x).wall = s.wall := rfl
@[simp] theorem send_regs (x : Sent) : (s.send x).regs = s.regs := rfl
@[simp] theorem send_insts (x : Sent) : (s.send x).insts = s.insts := rfl
@[simp] theorem send_image (x : Sent) : (s.send x).image = s.image := rfl
@[simp] theorem send_op (x : Sent) : (s.send x).op = s.op := rfl
@[simp] theorem send_mram (x : Sent) : (s.send x).mram = s.mram := rfl
@[simp] theorem send_fuses (x : Sent) : (s.send x).fuses = s.fuses := rfl
@[simp] theorem send_vault (x : Sent) : (s.send x).vault = s.vault := rfl
@[simp] theorem send_boot (x : Sent) : (s.send x).boot = s.boot := rfl
@[simp] theorem send_power (x : Sent) : (s.send x).power = s.power := rfl
@[simp] theorem send_safety (x : Sent) : (s.send x).safety = s.safety := rfl
@[simp] theorem send_pins (x : Sent) : (s.send x).pins = s.pins := rfl
@[simp] theorem send_host (x : Sent) : (s.send x).host = s.host := rfl
@[simp] theorem send_eng (x : Sent) : (s.send x).eng = s.eng := rfl
@[simp] theorem send_mem (x : Sent) : (s.send x).mem = s.mem := rfl
@[simp] theorem send_mons (x : Sent) : (s.send x).mons = s.mons := rfl
@[simp] theorem send_pool (x : Sent) : (s.send x).pool = s.pool := rfl
@[simp] theorem send_hbm (x : Sent) : (s.send x).hbm = s.hbm := rfl
@[simp] theorem send_answer (x : Sent) : (s.send x).answer = s.answer := rfl
@[simp] theorem send_free (x : Sent) : (s.send x).free = s.free := rfl

@[simp] theorem tick_wall (k : Nat) : (s.tick k).wall = s.wall + k := rfl
@[simp] theorem send_tx (x : Sent) : (s.send x).tx = s.tx ++ [x] := rfl

/-- Instance n after it is replaced. -/
@[simp] theorem inst_setInst_same (n : Nat) (i : Inst) : (s.setInst n i).inst n = i := get_set_same _ _ _ _
/-- Another instance is as it was. -/
theorem inst_setInst_other {n m : Nat} (i : Inst) (h : m ≠ n) : (s.setInst n i).inst m = s.inst m := get_set_other _ _ _ h
@[simp] theorem inst_modInst_same (n : Nat) (f : Inst → Inst) : (s.modInst n f).inst n = f (s.inst n) := inst_setInst_same s n _
theorem inst_modInst_other {n m : Nat} (f : Inst → Inst) (h : m ≠ n) : (s.modInst n f).inst m = s.inst m := inst_setInst_other s _ h
@[simp] theorem core_modCore_same (n : Nat) (f : Core → Core) : (s.modCore n f).core n = f (s.core n) := by
  simp [State.core, State.modCore]
theorem core_modCore_other {n m : Nat} (f : Core → Core) (h : m ≠ n) : (s.modCore n f).core m = s.core m := by
  simp [State.core, State.modCore, inst_modInst_other s _ h]

/-- A register of PF BAR0 after it is replaced. -/
@[simp] theorem pf_setPf_same (o : Nat) (w : Word) : (s.setPf o w).pf o = w := get_set_same _ _ _ _
/-- Another register is as it was. -/
theorem pf_setPf_other {o p : Nat} (w : Word) (h : p ≠ o) : (s.setPf o w).pf p = s.pf p := get_set_other _ _ _ h
@[simp] theorem pf_modPf_same (o : Nat) (f : Word → Word) : (s.modPf o f).pf o = f (s.pf o) := pf_setPf_same s o _
theorem pf_modPf_other {o p : Nat} (f : Word → Word) (h : p ≠ o) : (s.modPf o f).pf p = s.pf p := pf_setPf_other s _ h
@[simp] theorem pf_pfSet_same (o hi lo v : Nat) : (s.pfSet o hi lo v).pf o = wset (s.pf o) hi lo v := pf_modPf_same s o _
theorem pf_pfSet_other {o p : Nat} (hi lo v : Nat) (h : p ≠ o) : (s.pfSet o hi lo v).pf p = s.pf p := pf_modPf_other s _ h
@[simp] theorem pf_pfOr_same (o m : Nat) : (s.pfOr o m).pf o = orBits (s.pf o) m := pf_modPf_same s o _
theorem pf_pfOr_other {o p : Nat} (m : Nat) (h : p ≠ o) : (s.pfOr o m).pf p = s.pf p := pf_modPf_other s _ h
@[simp] theorem pf_pfCount_same (o hi lo k : Nat) : (s.pfCount o hi lo k).pf o = countUp (s.pf o) hi lo k := pf_modPf_same s o _
theorem pf_pfCount_other {o p : Nat} (hi lo k : Nat) (h : p ≠ o) : (s.pfCount o hi lo k).pf p = s.pf p := pf_modPf_other s _ h

/-- Reading an instance or a register depends on its table alone. -/
theorem inst_congr {s t : State} (h : t.insts = s.insts) (n : Nat) : t.inst n = s.inst n := by simp [State.inst, h]
theorem pf_congr {s t : State} (h : t.regs = s.regs) (o : Nat) : t.pf o = s.pf o := by simp [State.pf, h]

/-- A thread after it is replaced. -/
theorem thread_setThread_same {c : Core} {t : Nat} (x : Thread) (h : t < c.threads.length) : (c.setThread t x).thread t = x := by
  simp [Core.setThread, Core.thread, List.getD_eq_getElem?_getD, h]
theorem thread_setThread_other {c : Core} {t u : Nat} (x : Thread) (h : u ≠ t) : (c.setThread t x).thread u = c.thread u := by
  simp [Core.setThread, Core.thread, List.getD_eq_getElem?_getD, Ne.symm h]

end Sys2Proof.Laws
end

