-- ==== Sys2Proof/Laws/Tail.lean ====
section
/-! SUPPORT. What the end of a command can do (`fin`): messages to the PF, the level sources of the chip ICU, and no reaction where
no cause was detected. -/
namespace Sys2Proof.Laws
open Sys2Proof.Machine

/-- What messages to the PF can change: its pending bits, WAKE# and what was sent. -/
def Messages (s t : State) : Prop := ∃ p w x, t = { s with host := { s.host with pba := p, wake := w }, tx := x }

theorem Messages.refl (s : State) : Messages s s := ⟨s.host.pba, s.host.wake, s.tx, rfl⟩
theorem Messages.trans {s t u : State} (h : Messages s t) (k : Messages t u) : Messages s u := by
  obtain ⟨p, w, x, rfl⟩ := h; obtain ⟨q, v, y, rfl⟩ := k; exact ⟨q, v, y, rfl⟩

theorem pfMsix_messages (s : State) (v : Nat) : Messages s (s.pfMsix v) := by
  unfold State.pfMsix
  split
  · exact .refl s
  · split
    · exact ⟨_, s.host.wake, s.tx, rfl⟩
    · exact ⟨s.host.pba, s.host.wake, _, rfl⟩

theorem chipMessage_messages (s : State) (k : Nat) : Messages s (s.chipMessage k) := by
  unfold State.chipMessage; dsimp only
  split
  · exact pfMsix_messages s _
  · exact .refl s

theorem wakePin_messages (s : State) : Messages s s.wakePin := by
  unfold State.wakePin; dsimp only
  split
  · exact .refl s
  · split
    · exact ⟨s.host.pba, _, _, rfl⟩
    · exact ⟨s.host.pba, _, s.tx, rfl⟩

/-- A loop whose every round keeps a relation keeps it. -/
theorem loop_rel {σ : Type} {R : σ → σ → Prop} (refl : ∀ s, R s s) (trans : ∀ {a b c}, R a b → R b c → R a c) (n : Nat)
    (f : Nat → σ → σ) (hf : ∀ k s, R s (f k s)) (s : σ) : R s (loop n f s) := by
  unfold loop
  generalize List.range n = l
  induction l generalizing s with
  | nil => exact refl s
  | cons k l ih => exact trans (hf k s) (ih (f k s))

/-- The end of a command: the level sources as they are, with their messages. -/
theorem icuLevels_spec (s : State) :
    Messages { s with safety := { s.safety with levels := s.chipLevels } } s.icuLevels := by
  unfold State.icuLevels; dsimp only
  refine Messages.trans ?_ (wakePin_messages _)
  split
  · rename_i h
    have e : ({ s with safety := { s.safety with levels := s.chipLevels } } : State) = s := by rw [h]
    rw [e]; exact .refl s
  · refine loop_rel Messages.refl Messages.trans 96 _ (fun k s => ?_) _
    split
    · exact chipMessage_messages s k
    · exact .refl s

/-- The level sources do not depend on the messages. -/
theorem chipLevels_messages {s t : State} (h : Messages s t) : t.chipLevels = s.chipLevels := by
  obtain ⟨p, w, x, rfl⟩ := h; rfl

@[simp] theorem icuLevels_insts (s : State) : s.icuLevels.insts = s.insts := by obtain ⟨_, _, _, h⟩ := icuLevels_spec s; rw [h]
@[simp] theorem icuLevels_regs (s : State) : s.icuLevels.regs = s.regs := by obtain ⟨_, _, _, h⟩ := icuLevels_spec s; rw [h]
@[simp] theorem icuLevels_pool (s : State) : s.icuLevels.pool = s.pool := by obtain ⟨_, _, _, h⟩ := icuLevels_spec s; rw [h]
@[simp] theorem icuLevels_hbm (s : State) : s.icuLevels.hbm = s.hbm := by obtain ⟨_, _, _, h⟩ := icuLevels_spec s; rw [h]
@[simp] theorem icuLevels_pending (s : State) : s.icuLevels.pending = s.pending := by obtain ⟨_, _, _, h⟩ := icuLevels_spec s; rw [h]
@[simp] theorem icuLevels_fuses (s : State) : s.icuLevels.fuses = s.fuses := by obtain ⟨_, _, _, h⟩ := icuLevels_spec s; rw [h]
@[simp] theorem icuLevels_mram (s : State) : s.icuLevels.mram = s.mram := by obtain ⟨_, _, _, h⟩ := icuLevels_spec s; rw [h]
@[simp] theorem icuLevels_image (s : State) : s.icuLevels.image = s.image := by obtain ⟨_, _, _, h⟩ := icuLevels_spec s; rw [h]
@[simp] theorem icuLevels_boot (s : State) : s.icuLevels.boot = s.boot := by obtain ⟨_, _, _, h⟩ := icuLevels_spec s; rw [h]
@[simp] theorem icuLevels_power (s : State) : s.icuLevels.power = s.power := by obtain ⟨_, _, _, h⟩ := icuLevels_spec s; rw [h]
@[simp] theorem icuLevels_pins (s : State) : s.icuLevels.pins = s.pins := by obtain ⟨_, _, _, h⟩ := icuLevels_spec s; rw [h]
@[simp] theorem icuLevels_eng (s : State) : s.icuLevels.eng = s.eng := by obtain ⟨_, _, _, h⟩ := icuLevels_spec s; rw [h]
@[simp] theorem icuLevels_mem (s : State) : s.icuLevels.mem = s.mem := by obtain ⟨_, _, _, h⟩ := icuLevels_spec s; rw [h]
@[simp] theorem icuLevels_mons (s : State) : s.icuLevels.mons = s.mons := by obtain ⟨_, _, _, h⟩ := icuLevels_spec s; rw [h]
@[simp] theorem icuLevels_vault (s : State) : s.icuLevels.vault = s.vault := by obtain ⟨_, _, _, h⟩ := icuLevels_spec s; rw [h]
@[simp] theorem icuLevels_op (s : State) : s.icuLevels.op = s.op := by obtain ⟨_, _, _, h⟩ := icuLevels_spec s; rw [h]
@[simp] theorem icuLevels_wall (s : State) : s.icuLevels.wall = s.wall := by obtain ⟨_, _, _, h⟩ := icuLevels_spec s; rw [h]
@[simp] theorem icuLevels_answer (s : State) : s.icuLevels.answer = s.answer := by obtain ⟨_, _, _, h⟩ := icuLevels_spec s; rw [h]

/-- An instance with no cause takes no reaction. -/
theorem instReact_noCause {s : State} {n : Nat} (h : (s.inst n).found = []) : s.instReact n = s := by
  unfold State.instReact; exact if_pos (by rw [h]; rfl)

/-- Where no cause was detected, no reaction follows. -/
theorem react_noCause {s : State} (h : s.noCause) : s.react = s := by
  have hs : ({ s with safety := { s.safety with found := [] } } : State) = s := by rw [← h.1]
  have hf : ∀ l : Map Inst, l.foldl (fun s e => s.instReact e.1) s = s := fun l => by
    induction l with
    | nil => rfl
    | cons e l ih => rw [List.foldl_cons, instReact_noCause (h.2 e.1)]; exact ih
  unfold State.react
  rw [h.1, List.foldl_nil, hs]
  dsimp only
  rw [hf, ite_self]

/-- The end of a command that detected no cause. -/
theorem fin_noCause {s : State} (h : s.noCause) : fin s = .next s.icuLevels := by unfold fin; rw [react_noCause h]

/-- Every command answers the end of some state: none faults, and none is refused. -/
theorem step_next_of_fin {o : Result} {s : State} (h : o = fin s) : ∃ t, o = .next t := ⟨_, h⟩

end Sys2Proof.Laws
end

