-- ==== Sys2Proof/Laws/Exec.lean ====
section
/-! SUPPORT. Every command runs to the end of a command: no meaning faults or refuses, whatever the state and the operands. -/
namespace Sys2Proof.Laws
open Sys2Proof.Machine

/-- The answer is the end of some command's effect. -/
def Ends (o : Result) : Prop := ∃ t, o = fin t

theorem Ends.fin (s : State) : Ends (fin s) := ⟨s, rfl⟩
theorem Ends.ite {c : Prop} [Decidable c] {a b : Result} (ha : Ends a) (hb : Ends b) : Ends (if c then a else b) := by
  split <;> assumption

/-- Every command answers the end of some command. -/
theorem exec_ends (i : Instr) (s : State) : Ends (exec i s) := by
  cases i with
  | registerWrite p a width v =>
    exact ⟨_, rfl⟩
  | readClear p a width =>
    exact ⟨_, rfl⟩
  | coldPowerUp straps =>
    show Ends (execColdPowerUp straps s)
    unfold execColdPowerUp; try dsimp only
    (repeat' split) <;> exact ⟨_, rfl⟩
  | powerDown =>
    show Ends (execPowerDown s)
    unfold execPowerDown; try dsimp only
    (repeat' split) <;> exact ⟨_, rfl⟩
  | perstAssert =>
    show Ends (execPerstAssert s)
    unfold execPerstAssert; try dsimp only
    (repeat' split) <;> exact ⟨_, rfl⟩
  | perstDeassert straps =>
    show Ends (execPerstDeassert straps s)
    unfold execPerstDeassert; try dsimp only
    (repeat' split) <;> exact ⟨_, rfl⟩
  | hotReset cause =>
    show Ends (execHotReset cause s)
    unfold execHotReset; try dsimp only
    (repeat' split) <;> exact ⟨_, rfl⟩
  | boot r =>
    show Ends (execBoot r s)
    unfold execBoot; try dsimp only
    (repeat' split) <;> exact ⟨_, rfl⟩
  | loadHost image ms avs cut =>
    show Ends (execLoadHost image ms avs cut s)
    unfold execLoadHost; try dsimp only
    (repeat' split) <;> exact ⟨_, rfl⟩
  | loadSlot ms avs cut =>
    show Ends (execLoadSlot ms avs cut s)
    unfold execLoadSlot; try dsimp only
    (repeat' split) <;> exact ⟨_, rfl⟩
  | writeSlot image ms =>
    show Ends (execWriteSlot image ms s)
    unfold execWriteSlot; try dsimp only
    (repeat' split) <;> exact ⟨_, rfl⟩
  | sealSlot ms cut =>
    show Ends (execSealSlot ms cut s)
    unfold execSealSlot; try dsimp only
    (repeat' split) <;> exact ⟨_, rfl⟩
  | eraseSlot ms =>
    show Ends (execEraseSlot ms s)
    unfold execEraseSlot; try dsimp only
    (repeat' split) <;> exact ⟨_, rfl⟩
  | fuseArm v =>
    exact ⟨_, rfl⟩
  | reservedOpcode n t w =>
    exact ⟨_, rfl⟩
  | sel n t f =>
    exact ⟨_, rfl⟩
  | lui n t f =>
    exact ⟨_, rfl⟩
  | addi n t f =>
    exact ⟨_, rfl⟩
  | andi n t f =>
    exact ⟨_, rfl⟩
  | ori n t f =>
    exact ⟨_, rfl⟩
  | xori n t f =>
    exact ⟨_, rfl⟩
  | cmpeqi n t f =>
    exact ⟨_, rfl⟩
  | cmpnei n t f =>
    exact ⟨_, rfl⟩
  | cmplti n t f =>
    exact ⟨_, rfl⟩
  | cmpltui n t f =>
    exact ⟨_, rfl⟩
  | shli n t f =>
    exact ⟨_, rfl⟩
  | shri n t f =>
    exact ⟨_, rfl⟩
  | sari n t f =>
    exact ⟨_, rfl⟩
  | muli n t f =>
    exact ⟨_, rfl⟩
  | lb n t f =>
    exact ⟨_, rfl⟩
  | lbu n t f =>
    exact ⟨_, rfl⟩
  | lh n t f =>
    exact ⟨_, rfl⟩
  | lhu n t f =>
    exact ⟨_, rfl⟩
  | lw n t f =>
    exact ⟨_, rfl⟩
  | ld n t f =>
    exact ⟨_, rfl⟩
  | aadd n t f =>
    exact ⟨_, rfl⟩
  | aswp n t f =>
    exact ⟨_, rfl⟩
  | sb n t f =>
    exact ⟨_, rfl⟩
  | sh n t f =>
    exact ⟨_, rfl⟩
  | sw n t f =>
    exact ⟨_, rfl⟩
  | sd n t f =>
    exact ⟨_, rfl⟩
  | bz n t f =>
    exact ⟨_, rfl⟩
  | bnz n t f =>
    exact ⟨_, rfl⟩
  | dbnz n t f =>
    exact ⟨_, rfl⟩
  | j n t f =>
    exact ⟨_, rfl⟩
  | call n t f =>
    exact ⟨_, rfl⟩
  | jalr n t f =>
    exact ⟨_, rfl⟩
  | add n t f =>
    exact ⟨_, rfl⟩
  | sub n t f =>
    exact ⟨_, rfl⟩
  | and n t f =>
    exact ⟨_, rfl⟩
  | or n t f =>
    exact ⟨_, rfl⟩
  | xor n t f =>
    exact ⟨_, rfl⟩
  | andn n t f =>
    exact ⟨_, rfl⟩
  | shl n t f =>
    exact ⟨_, rfl⟩
  | shr n t f =>
    exact ⟨_, rfl⟩
  | sar n t f =>
    exact ⟨_, rfl⟩
  | rol n t f =>
    exact ⟨_, rfl⟩
  | ror n t f =>
    exact ⟨_, rfl⟩
  | cmpeq n t f =>
    exact ⟨_, rfl⟩
  | cmpne n t f =>
    exact ⟨_, rfl⟩
  | cmplt n t f =>
    exact ⟨_, rfl⟩
  | cmpltu n t f =>
    exact ⟨_, rfl⟩
  | cmple n t f =>
    exact ⟨_, rfl⟩
  | cmpleu n t f =>
    exact ⟨_, rfl⟩
  | min n t f =>
    exact ⟨_, rfl⟩
  | max n t f =>
    exact ⟨_, rfl⟩
  | minu n t f =>
    exact ⟨_, rfl⟩
  | maxu n t f =>
    exact ⟨_, rfl⟩
  | mul n t f =>
    exact ⟨_, rfl⟩
  | mulh n t f =>
    exact ⟨_, rfl⟩
  | mulhu n t f =>
    exact ⟨_, rfl⟩
  | divs n t f =>
    exact ⟨_, rfl⟩
  | divu n t f =>
    exact ⟨_, rfl⟩
  | carry n t f =>
    exact ⟨_, rfl⟩
  | borrow n t f =>
    exact ⟨_, rfl⟩
  | adds n t f =>
    exact ⟨_, rfl⟩
  | subs n t f =>
    exact ⟨_, rfl⟩
  | neg n t f =>
    exact ⟨_, rfl⟩
  | not n t f =>
    exact ⟨_, rfl⟩
  | abs n t f =>
    exact ⟨_, rfl⟩
  | clz n t f =>
    exact ⟨_, rfl⟩
  | ctz n t f =>
    exact ⟨_, rfl⟩
  | popc n t f =>
    exact ⟨_, rfl⟩
  | par n t f =>
    exact ⟨_, rfl⟩
  | brev n t f =>
    exact ⟨_, rfl⟩
  | brev8 n t f =>
    exact ⟨_, rfl⟩
  | bswap n t f =>
    exact ⟨_, rfl⟩
  | sextb n t f =>
    exact ⟨_, rfl⟩
  | sexth n t f =>
    exact ⟨_, rfl⟩
  | zexth n t f =>
    exact ⟨_, rfl⟩
  | crc32b n t f =>
    exact ⟨_, rfl⟩
  | crc32w n t f =>
    exact ⟨_, rfl⟩
  | crc16b n t f =>
    exact ⟨_, rfl⟩
  | nop n t f =>
    exact ⟨_, rfl⟩
  | wait n t f =>
    exact ⟨_, rfl⟩
  | iret n t f =>
    exact ⟨_, rfl⟩
  | trap n t f =>
    exact ⟨_, rfl⟩
  | mfsr n t f =>
    exact ⟨_, rfl⟩
  | mtsr n t f =>
    exact ⟨_, rfl⟩
  | stop n t f =>
    exact ⟨_, rfl⟩
  | pair n t f =>
    exact ⟨_, rfl⟩
  | threadRunWrite p n v =>
    exact ⟨_, rfl⟩
  | instTRegisterWrite p n t off v =>
    show Ends (execInstTRegisterWrite p n t off v s)
    unfold execInstTRegisterWrite; try dsimp only
    (repeat' split) <;> exact ⟨_, rfl⟩
  | interruptEntry n t =>
    exact ⟨_, rfl⟩
  | waitWake n t =>
    exact ⟨_, rfl⟩
  | icuClaim n t =>
    exact ⟨_, rfl⟩
  | icuEoi p n v =>
    exact ⟨_, rfl⟩
  | icuSrcCfgWrite p n j v =>
    show Ends (execIcuSrcCfgWrite p n j v s)
    unfold execIcuSrcCfgWrite; try dsimp only
    (repeat' split) <;> exact ⟨_, rfl⟩
  | timCtrlWrite p n j v =>
    show Ends (execTimCtrlWrite p n j v s)
    unfold execTimCtrlWrite; try dsimp only
    (repeat' split) <;> exact ⟨_, rfl⟩
  | timerTick n j =>
    exact ⟨_, rfl⟩
  | timCaptRead p n j =>
    show Ends (execTimCaptRead p n j s)
    unfold execTimCaptRead; try dsimp only
    (repeat' split) <;> exact ⟨_, rfl⟩
  | beamTimerFire n j =>
    exact ⟨_, rfl⟩
  | eventPulse n j =>
    show Ends (execEventPulse n j s)
    unfold execEventPulse; try dsimp only
    (repeat' split) <;> exact ⟨_, rfl⟩
  | evtSw p n v =>
    exact ⟨_, rfl⟩
  | threeFlopPulseAction n j =>
    show Ends (execThreeFlopPulseAction n j s)
    unfold execThreeFlopPulseAction; try dsimp only
    (repeat' split) <;> exact ⟨_, rfl⟩
  | cdcInstModeWrite n v =>
    show Ends (execCdcInstModeWrite n v s)
    unfold execCdcInstModeWrite; try dsimp only
    (repeat' split) <;> exact ⟨_, rfl⟩
  | vidVcLoRead p n =>
    exact ⟨_, rfl⟩
  | vidTimingWrite p n v =>
    exact ⟨_, rfl⟩
  | hostWriteLand n =>
    show Ends (execHostWriteLand n s)
    unfold execHostWriteLand; try dsimp only
    (repeat' split) <;> exact ⟨_, rfl⟩
  | frameRelease n =>
    exact ⟨_, rfl⟩
  | pacingDeadlineExpire n =>
    show Ends (execPacingDeadlineExpire n s)
    unfold execPacingDeadlineExpire; try dsimp only
    (repeat' split) <;> exact ⟨_, rfl⟩
  | vidPaceReanchor n v =>
    show Ends (execVidPaceReanchor n v s)
    unfold execVidPaceReanchor; try dsimp only
    (repeat' split) <;> exact ⟨_, rfl⟩
  | lineStatePoint n =>
    exact ⟨_, rfl⟩
  | frameLatch n =>
    exact ⟨_, rfl⟩
  | cmpCommit p n v =>
    exact ⟨_, rfl⟩
  | lineDispatch n k =>
    show Ends (execLineDispatch n k s)
    unfold execLineDispatch; try dsimp only
    (repeat' split) <;> exact ⟨_, rfl⟩
  | lineRenderDone k =>
    show Ends (execLineRenderDone k s)
    unfold execLineRenderDone; try dsimp only
    (repeat' split) <;> exact ⟨_, rfl⟩
  | journalRetire n =>
    show Ends (execJournalRetire n s)
    unfold execJournalRetire; try dsimp only
    (repeat' split) <;> exact ⟨_, rfl⟩
  | engineBeatLand n =>
    show Ends (execEngineBeatLand n s)
    unfold execEngineBeatLand; try dsimp only
    (repeat' split) <;> exact ⟨_, rfl⟩
  | rendererRotation k pass =>
    show Ends (execRendererRotation k s pass)
    unfold execRendererRotation; try dsimp only
    (repeat' split) <;> exact ⟨_, rfl⟩
  | rendererTestDone k pass =>
    show Ends (execRendererTestDone k pass s)
    unfold execRendererTestDone; try dsimp only
    (repeat' split) <;> exact ⟨_, rfl⟩
  | blitEngineTest k pass =>
    show Ends (execBlitEngineTest k pass s)
    unfold execBlitEngineTest; try dsimp only
    (repeat' split) <;> exact ⟨_, rfl⟩
  | coreTest k pass =>
    show Ends (execCoreTest k pass s)
    unfold execCoreTest; try dsimp only
    (repeat' split) <;> exact ⟨_, rfl⟩
  | bltSubmit p n v =>
    exact ⟨_, rfl⟩
  | blitJobCreditWait n =>
    show Ends (execBlitJobCreditWait n s)
    unfold execBlitJobCreditWait; try dsimp only
    (repeat' split) <;> exact ⟨_, rfl⟩
  | blitJobTake k =>
    show Ends (execBlitJobTake k s)
    unfold execBlitJobTake; try dsimp only
    (repeat' split) <;> exact ⟨_, rfl⟩
  | blitJobStart n =>
    exact ⟨_, rfl⟩
  | blitBeat n =>
    exact ⟨_, rfl⟩
  | blitSetAside k =>
    show Ends (execBlitSetAside k s)
    unfold execBlitSetAside; try dsimp only
    (repeat' split) <;> exact ⟨_, rfl⟩
  | blitResume k =>
    show Ends (execBlitResume k s)
    unfold execBlitResume; try dsimp only
    (repeat' split) <;> exact ⟨_, rfl⟩
  | dmaStart p n j v =>
    show Ends (execDmaStart p n j v s)
    unfold execDmaStart; try dsimp only
    (repeat' split) <;> exact ⟨_, rfl⟩
  | dmaCheck n j =>
    exact ⟨_, rfl⟩
  | dmaBeat n =>
    exact ⟨_, rfl⟩
  | audioSample n =>
    exact ⟨_, rfl⟩
  | audRestart p n j v =>
    show Ends (execAudRestart p n j v s)
    unfold execAudRestart; try dsimp only
    (repeat' split) <;> exact ⟨_, rfl⟩
  | audSampleLoRead p n =>
    exact ⟨_, rfl⟩
  | streamSlotClaim n =>
    show Ends (execStreamSlotClaim n s)
    unfold execStreamSlotClaim; try dsimp only
    (repeat' split) <;> exact ⟨_, rfl⟩
  | compressRow k =>
    show Ends (execCompressRow k s)
    unfold execCompressRow; try dsimp only
    (repeat' split) <;> exact ⟨_, rfl⟩
  | packetComplete n =>
    show Ends (execPacketComplete n s)
    unfold execPacketComplete; try dsimp only
    (repeat' split) <;> exact ⟨_, rfl⟩
  | packetMove n =>
    show Ends (execPacketMove n s)
    unfold execPacketMove; try dsimp only
    (repeat' split) <;> exact ⟨_, rfl⟩
  | whistleWatchdogExpire n =>
    show Ends (execWhistleWatchdogExpire n s)
    unfold execWhistleWatchdogExpire; try dsimp only
    (repeat' split) <;> exact ⟨_, rfl⟩
  | bypassBlockMove n =>
    show Ends (execBypassBlockMove n s)
    unfold execBypassBlockMove; try dsimp only
    (repeat' split) <;> exact ⟨_, rfl⟩
  | monitorFrameStart k =>
    show Ends (execMonitorFrameStart k s)
    unfold execMonitorFrameStart; try dsimp only
    (repeat' split) <;> exact ⟨_, rfl⟩
  | monitorSlotRelease k =>
    show Ends (execMonitorSlotRelease k s)
    unfold execMonitorSlotRelease; try dsimp only
    (repeat' split) <;> exact ⟨_, rfl⟩
  | dpLinkTrain k lanes rate =>
    show Ends (execDpLinkTrain k lanes rate s)
    unfold execDpLinkTrain; try dsimp only
    (repeat' split) <;> exact ⟨_, rfl⟩
  | hpdEvent k e =>
    show Ends (execHpdEvent k e s)
    unfold execHpdEvent; try dsimp only
    (repeat' split) <;> exact ⟨_, rfl⟩
  | cmpBellCommit n v =>
    show Ends (execCmpBellCommit n v s)
    unfold execCmpBellCommit; try dsimp only
    (repeat' split) <;> exact ⟨_, rfl⟩
  | bellBankSwitch n =>
    show Ends (execBellBankSwitch n s)
    unfold execBellBankSwitch; try dsimp only
    (repeat' split) <;> exact ⟨_, rfl⟩
  | bellSurfaceWrite off width v =>
    show Ends (execBellSurfaceWrite off width v s)
    unfold execBellSurfaceWrite; try dsimp only
    (repeat' split) <;> exact ⟨_, rfl⟩
  | checkpoint n =>
    show Ends (execCheckpoint n s)
    unfold execCheckpoint; try dsimp only
    (repeat' split) <;> exact ⟨_, rfl⟩
  | undoCopy n region block =>
    show Ends (execUndoCopy n region block s)
    unfold execUndoCopy; try dsimp only
    (repeat' split) <;> exact ⟨_, rfl⟩
  | auditRun n slot again r =>
    show Ends (execAuditRun n slot again r s)
    unfold execAuditRun; try dsimp only
    (repeat' split) <;> exact ⟨_, rfl⟩
  | hold n =>
    exact ⟨_, rfl⟩
  | holdNow n =>
    exact ⟨_, rfl⟩
  | play n shelf =>
    exact ⟨_, rfl⟩
  | bench n shelf =>
    exact ⟨_, rfl⟩
  | park n shelf =>
    exact ⟨_, rfl⟩
  | shelve n =>
    exact ⟨_, rfl⟩
  | rewind n =>
    exact ⟨_, rfl⟩
  | instReset n =>
    exact ⟨_, rfl⟩
  | adopt n =>
    exact ⟨_, rfl⟩
  | rungCommandDequeue n =>
    exact ⟨_, rfl⟩
  | cmdEntry n entry =>
    exact ⟨_, rfl⟩
  | inputArrive n entry =>
    show Ends (execInputArrive n entry s)
    unfold execInputArrive; try dsimp only
    (repeat' split) <;> exact ⟨_, rfl⟩
  | extWrite =>
    exact ⟨_, rfl⟩
  | extRead =>
    exact ⟨_, rfl⟩
  | extFlush =>
    exact ⟨_, rfl⟩
  | extDrop =>
    exact ⟨_, rfl⟩
  | extFetch leaves =>
    show Ends (execExtFetch leaves s)
    unfold execExtFetch; try dsimp only
    (repeat' split) <;> exact ⟨_, rfl⟩
  | extSpanWrite p n count v =>
    show Ends (execExtSpanWrite p n count v s)
    unfold execExtSpanWrite; try dsimp only
    (repeat' split) <;> exact ⟨_, rfl⟩
  | leafMove extent leaf content =>
    show Ends (execLeafMove extent leaf content s)
    unfold execLeafMove; try dsimp only
    (repeat' split) <;> exact ⟨_, rfl⟩
  | moverCopy r desc data =>
    show Ends (execMoverCopy r desc data s)
    unfold execMoverCopy; try dsimp only
    (repeat' split) <;> exact ⟨_, rfl⟩
  | moverFill r desc =>
    show Ends (execMoverFill r desc s)
    unfold execMoverFill; try dsimp only
    (repeat' split) <;> exact ⟨_, rfl⟩
  | moverDescriptorComplete r =>
    show Ends (execMoverDescriptorComplete r s)
    unfold execMoverDescriptorComplete; try dsimp only
    (repeat' split) <;> exact ⟨_, rfl⟩
  | hstMvTail r v =>
    show Ends (execHstMvTail r v s)
    unfold execHstMvTail; try dsimp only
    (repeat' split) <;> exact ⟨_, rfl⟩
  | moverRingDisable r =>
    show Ends (execMoverRingDisable r s)
    unfold execMoverRingDisable; try dsimp only
    (repeat' split) <;> exact ⟨_, rfl⟩
  | moverRingResume r =>
    show Ends (execMoverRingResume r s)
    unfold execMoverRingResume; try dsimp only
    (repeat' split) <;> exact ⟨_, rfl⟩
  | hstVfRingEnable p n r v =>
    show Ends (execHstVfRingEnable p n r v s)
    unfold execHstVfRingEnable; try dsimp only
    (repeat' split) <;> exact ⟨_, rfl⟩
  | hstVfDb p n r v =>
    show Ends (execHstVfDb p n r v s)
    unfold execHstVfDb; try dsimp only
    (repeat' split) <;> exact ⟨_, rfl⟩
  | irqDelayExpire n =>
    show Ends (execIrqDelayExpire n s)
    unfold execIrqDelayExpire; try dsimp only
    (repeat' split) <;> exact ⟨_, rfl⟩
  | ringReadFail n r =>
    show Ends (execRingReadFail n r s)
    unfold execRingReadFail; try dsimp only
    (repeat' split) <;> exact ⟨_, rfl⟩
  | flr n =>
    show Ends (execFlr n s)
    unfold execFlr; try dsimp only
    (repeat' split) <;> exact ⟨_, rfl⟩
  | vfEnableClear count =>
    exact ⟨_, rfl⟩
  | busMasterEnableChange fn on =>
    exact ⟨_, rfl⟩
  | unsupportedRequest p a =>
    show Ends (execUnsupportedRequest p a s)
    unfold execUnsupportedRequest; try dsimp only
    (repeat' split) <;> exact ⟨_, rfl⟩
  | poisonedWrite p a =>
    show Ends (execPoisonedWrite p a s)
    unfold execPoisonedWrite; try dsimp only
    (repeat' split) <;> exact ⟨_, rfl⟩
  | linkTrain lanes rate flit =>
    show Ends (execLinkTrain lanes rate flit s)
    unfold execLinkTrain; try dsimp only
    (repeat' split) <;> exact ⟨_, rfl⟩
  | channelWatchdogExpire k =>
    show Ends (execChannelWatchdogExpire k s)
    unfold execChannelWatchdogExpire; try dsimp only
    (repeat' split) <;> exact ⟨_, rfl⟩
  | powerRun =>
    exact ⟨_, rfl⟩
  | retain =>
    exact ⟨_, rfl⟩
  | doze =>
    exact ⟨_, rfl⟩
  | idleEnter =>
    show Ends (execIdleEnter s)
    unfold execIdleEnter; try dsimp only
    (repeat' split) <;> exact ⟨_, rfl⟩
  | idleExit =>
    show Ends (execIdleExit s)
    unfold execIdleExit; try dsimp only
    (repeat' split) <;> exact ⟨_, rfl⟩
  | rampStart =>
    exact ⟨_, rfl⟩
  | rampEnd d =>
    exact ⟨_, rfl⟩
  | drainComplete d =>
    show Ends (execDrainComplete d s)
    unfold execDrainComplete; try dsimp only
    (repeat' split) <;> exact ⟨_, rfl⟩
  | drainForced d =>
    show Ends (execDrainForced d s)
    unfold execDrainForced; try dsimp only
    (repeat' split) <;> exact ⟨_, rfl⟩
  | linkSleepEnter =>
    show Ends (execLinkSleepEnter s)
    unfold execLinkSleepEnter; try dsimp only
    (repeat' split) <;> exact ⟨_, rfl⟩
  | linkSleepExit =>
    show Ends (execLinkSleepExit s)
    unfold execLinkSleepExit; try dsimp only
    (repeat' split) <;> exact ⟨_, rfl⟩
  | scrubStep upsets =>
    show Ends (execScrubStep s upsets)
    unfold execScrubStep; try dsimp only
    (repeat' split) <;> exact ⟨_, rfl⟩
  | poolSelfTest g pass =>
    show Ends (execPoolSelfTest g pass s)
    unfold execPoolSelfTest; try dsimp only
    (repeat' split) <;> exact ⟨_, rfl⟩
  | hbmPatrolScrub =>
    show Ends (execHbmPatrolScrub s)
    unfold execHbmPatrolScrub; try dsimp only
    (repeat' split) <;> exact ⟨_, rfl⟩
  | injectCe =>
    exact ⟨_, rfl⟩
  | injectUe =>
    exact ⟨_, rfl⟩
  | lockstepMismatch k =>
    show Ends (execLockstepMismatch k s)
    unfold execLockstepMismatch; try dsimp only
    (repeat' split) <;> exact ⟨_, rfl⟩
  | mgtHeartbeat =>
    show Ends (execMgtHeartbeat s)
    unfold execMgtHeartbeat; try dsimp only
    (repeat' split) <;> exact ⟨_, rfl⟩
  | mgtWatchdog =>
    show Ends (execMgtWatchdog s)
    unfold execMgtWatchdog; try dsimp only
    (repeat' split) <;> exact ⟨_, rfl⟩
  | clockMonitorWindow c count lost =>
    show Ends (execClockMonitorWindow c count lost s)
    unfold execClockMonitorWindow; try dsimp only
    (repeat' split) <;> exact ⟨_, rfl⟩
  | voltageSample rail uv =>
    show Ends (execVoltageSample rail uv s)
    unfold execVoltageSample; try dsimp only
    (repeat' split) <;> exact ⟨_, rfl⟩
  | tempCrossing level =>
    show Ends (execTempCrossing level s)
    unfold execTempCrossing; try dsimp only
    (repeat' split) <;> exact ⟨_, rfl⟩
  | thermtrip =>
    show Ends (execThermtrip s)
    unfold execThermtrip; try dsimp only
    (repeat' split) <;> exact ⟨_, rfl⟩
  | tamperAssert j =>
    show Ends (execTamperAssert j s)
    unfold execTamperAssert; try dsimp only
    (repeat' split) <;> exact ⟨_, rfl⟩
  | tamperWipeDone =>
    show Ends (execTamperWipeDone s)
    unfold execTamperWipeDone; try dsimp only
    (repeat' split) <;> exact ⟨_, rfl⟩
  | hbmLinkLoss =>
    show Ends (execHbmLinkLoss s)
    unfold execHbmLinkLoss; try dsimp only
    (repeat' split) <;> exact ⟨_, rfl⟩
  | safForce v =>
    exact ⟨_, rfl⟩
  | safTestReq v =>
    exact ⟨_, rfl⟩
  | testStart pass =>
    show Ends (execTestStart s pass)
    unfold execTestStart; try dsimp only
    (repeat' split) <;> exact ⟨_, rfl⟩
  | testDefer =>
    show Ends (execTestDefer s)
    unfold execTestDefer; try dsimp only
    (repeat' split) <;> exact ⟨_, rfl⟩
  | testDone pass =>
    show Ends (execTestDone pass s)
    unfold execTestDone; try dsimp only
    (repeat' split) <;> exact ⟨_, rfl⟩
  | gpioCfgWrite a p v =>
    show Ends (execGpioCfgWrite a p v s)
    unfold execGpioCfgWrite; try dsimp only
    (repeat' split) <;> exact ⟨_, rfl⟩
  | gpioSwitchSettle p =>
    exact ⟨_, rfl⟩
  | gpioTgl a w v =>
    show Ends (execGpioTgl a w v s)
    unfold execGpioTgl; try dsimp only
    (repeat' split) <;> exact ⟨_, rfl⟩
  | gpioLockKey a v =>
    exact ⟨_, rfl⟩
  | gpioLockedWrite a w v =>
    show Ends (execGpioLockedWrite a w v s)
    unfold execGpioLockedWrite; try dsimp only
    (repeat' split) <;> exact ⟨_, rfl⟩
  | gpioEdge p level closed =>
    show Ends (execGpioEdge p level closed s)
    unfold execGpioEdge; try dsimp only
    (repeat' split) <;> exact ⟨_, rfl⟩
  | fwInfo =>
    show Ends (execFwInfo s)
    unfold execFwInfo; try dsimp only
    (repeat' split) <;> exact ⟨_, rfl⟩
  | flashWrite copy again readBack =>
    show Ends (execFlashWrite copy again readBack s)
    unfold execFlashWrite; try dsimp only
    (repeat' split) <;> exact ⟨_, rfl⟩
  | flashErase =>
    show Ends (execFlashErase s)
    unfold execFlashErase; try dsimp only
    (repeat' split) <;> exact ⟨_, rfl⟩
  | jtagBypass =>
    exact ⟨_, rfl⟩
  | idcode =>
    exact ⟨_, rfl⟩
  | samplePreload v =>
    show Ends (execSamplePreload v s)
    unfold execSamplePreload; try dsimp only
    (repeat' split) <;> exact ⟨_, rfl⟩
  | extest v =>
    show Ends (execExtest v s)
    unfold execExtest; try dsimp only
    (repeat' split) <;> exact ⟨_, rfl⟩
  | clampInstruction =>
    show Ends (execClampInstruction s)
    unfold execClampInstruction; try dsimp only
    (repeat' split) <;> exact ⟨_, rfl⟩
  | highz =>
    show Ends (execHighz s)
    unfold execHighz; try dsimp only
    (repeat' split) <;> exact ⟨_, rfl⟩
  | dpLinkLoss k =>
    show Ends (execDpLinkLoss k s)
    unfold execDpLinkLoss; try dsimp only
    (repeat' split) <;> exact ⟨_, rfl⟩
  | i2sBlockDrain k =>
    show Ends (execI2sBlockDrain k s)
    unfold execI2sBlockDrain; try dsimp only
    (repeat' split) <;> exact ⟨_, rfl⟩
  | adaptiveVoltageScaling mv =>
    show Ends (execAdaptiveVoltageScaling mv s)
    unfold execAdaptiveVoltageScaling; try dsimp only
    (repeat' split) <;> exact ⟨_, rfl⟩
  | coreParityFault c p =>
    show Ends (execCoreParityFault c p s)
    unfold execCoreParityFault; try dsimp only
    (repeat' split) <;> exact ⟨_, rfl⟩
  | memorySpaceEnableChange fn on =>
    exact ⟨_, rfl⟩

/-- The answer of every command is a next state. -/
theorem exec_next (i : Instr) (s : State) : ∃ t, exec i s = .next t := by
  obtain ⟨t, h⟩ := exec_ends i s
  exact ⟨_, h⟩

end Sys2Proof.Laws
end

