-- ==== Sys2Proof/Laws/Settle.lean ====
section
/-! SUPPORT. What the effects that need no command can change (R92 to R104, R200, R351, R355, R369, R374): memory and instance n, never
another instance, and of a thread only what a return from an interrupt restores. -/
namespace Sys2Proof.Laws
open Sys2Proof.Machine

theorem Returned.refl (a : Thread) : a.Returned a := rfl
theorem Returned.trans {a b c : Thread} (h : a.Returned b) (k : b.Returned c) : a.Returned c := by
  have h' : b = { a with stack := b.stack, inTrap := b.inTrap, level := b.level } := h
  have k' : c = { b with stack := c.stack, inTrap := c.inTrap, level := c.level } := k
  show c = { a with stack := c.stack, inTrap := c.inTrap, level := c.level }
  rw [k', h']

/-- Core d comes from core c by an effect: threads change only as returns restore them, and those of which `q` holds not at all. -/
structure Calm (q : Nat → Prop) (c d : Core) : Prop where
  threads : ∀ y, q y → d.thread y = c.thread y
  returns : ∀ y, q y → c.noReturn y → d.noReturn y
  always  : ∀ y, (c.thread y).Returned (d.thread y)

theorem thread_of_threads {c d : Core} (h : d.threads = c.threads) (y : Nat) : d.thread y = c.thread y := by
  unfold Core.thread; rw [h]

/-- A change that keeps the threads, and queues no return. -/
theorem Calm.of {q : Nat → Prop} {c d : Core} (h : d.threads = c.threads) (k : d.micro = c.micro) : Calm q c d :=
  ⟨fun y _ => thread_of_threads h y, fun _ _ x => by unfold Core.noReturn; rw [k]; exact x,
    fun y => by rw [thread_of_threads h y]; exact .refl _⟩
theorem Calm.refl {q : Nat → Prop} (c : Core) : Calm q c c := .of rfl rfl
theorem Calm.trans {q : Nat → Prop} {a b c : Core} (h : Calm q a b) (k : Calm q b c) : Calm q a c :=
  ⟨fun y x => (k.threads y x).trans (h.threads y x), fun y x z => k.returns y x (h.returns y x z),
    fun y => Returned.trans (h.always y) (k.always y)⟩

/-- A choice keeps what both branches keep. -/
theorem ite_rel {σ : Type} (p : σ → Prop) {c : Prop} [Decidable c] {a b : σ} (ha : p a) (hb : p b) : p (if c then a else b) := by
  split <;> assumption

/-- A fold whose every step keeps a relation keeps it. -/
theorem foldl_rel {σ β : Type} {R : σ → σ → Prop} (refl : ∀ s, R s s) (trans : ∀ {a b c}, R a b → R b c → R a c)
    (f : σ → β → σ) (hf : ∀ s x, R s (f s x)) (l : List β) (s : σ) : R s (l.foldl f s) := by
  induction l generalizing s with
  | nil => exact refl s
  | cons x l ih => exact trans (hf s x) (ih (f s x))

theorem mem_insertMicro {k : Nat} {m : Micro} {l : List (Nat × Micro)} {e : Nat × Micro} (h : e ∈ insertMicro k m l) :
    e = (k, m) ∨ e ∈ l := by
  induction l with
  | nil => exact .inl (List.mem_singleton.mp h)
  | cons x r ih =>
    unfold insertMicro at h
    split at h
    · exact List.mem_cons.mp h
    · rcases List.mem_cons.mp h with rfl | h
      · exact .inr (List.mem_cons_self ..)
      · rcases ih h with h | h
        · exact .inl h
        · exact .inr (List.mem_cons_of_mem _ h)

section core
variable {q : Nat → Prop} (c : Core)

/-- Queueing an effect that is no return. -/
theorem addMicro_calm {k : Nat} {m : Micro} (h : ∀ t d, m ≠ .endService t d) : Calm q c (c.addMicro k m) :=
  ⟨fun _ _ => rfl, fun y _ hc e he d => (mem_insertMicro he).elim (fun x => x ▸ h y d) fun x => hc e x d, fun _ => .refl _⟩

theorem sense_calm : Calm q c c.sense := by unfold Core.sense; exact ite_rel (Calm q c) (.refl c) (.of rfl rfl)
theorem passed_calm (k : Nat) : Calm q c (c.passed k) := (Calm.of rfl rfl : Calm q c { c with lastKey := max c.lastKey k }).trans (sense_calm _)
theorem setReg_calm (o : Nat) (w : Word) : Calm q c (c.setReg o w) := .of rfl rfl
theorem rOr_calm (o w : Nat) : Calm q c (c.rOr o w) := .of rfl rfl
theorem rSet_calm (o a b w : Nat) : Calm q c (c.rSet o a b w) := .of rfl rfl
theorem pulse_calm (o w : Nat) : Calm q c (c.pulse o w) := .of rfl rfl
theorem endService_calm (k : Nat) : Calm q c (c.endService k) := .of rfl rfl
theorem timMatch_calm (i t : Nat) : Calm q c (c.timMatch i t) := (rOr_calm c _ _).trans (pulse_calm _ _ _)
theorem timWrap_calm (i t : Nat) : Calm q c (c.timWrap i t) := by
  unfold Core.timWrap
  refine ite_rel (Calm q c) ?_ ((rOr_calm c _ _).trans (pulse_calm _ _ _))
  have h : Calm q c (((c.rOr (O.TIM_STATUS + 32 * i) 2).pulse (t + 1) (5 + i)).rSet (O.TIM_CTRL + 32 * i) 0 0 0) :=
    (rOr_calm c _ _).trans ((pulse_calm _ _ _).trans (rSet_calm _ _ _ _ _))
  exact h.trans (.of rfl rfl)
theorem timTick_calm (i t : Nat) : Calm q c (c.timTick i t) := by
  unfold Core.timTick; dsimp only
  have h : ∀ d : Core, Calm q c d → ∀ p : Prop, [Decidable p] → Calm q c (if p then d.timMatch i t else d) :=
    fun d hd p _ => ite_rel (Calm q c) (hd.trans (timMatch_calm d i t)) hd
  have e : ∀ (o : Nat) (w : Word) (o' a b x : Nat), Calm q c ((c.setReg o w).rSet o' a b x) :=
    fun o w o' a b x => (setReg_calm c o w).trans (rSet_calm _ _ _ _ _)
  exact ite_rel (Calm q c) ((h _ (e _ _ _ _ _ _) _).trans (timWrap_calm _ i t)) (h _ (e _ _ _ _ _ _) _)
theorem timSchedule_calm (i t : Nat) : Calm q c (c.timSchedule i t) := .of rfl rfl
theorem timRestart_calm (i t : Nat) : Calm q c (c.timRestart i t) :=
  (((setReg_calm c _ _).trans (rSet_calm _ _ _ _ _)).trans (rSet_calm _ _ _ _ _)).trans (timSchedule_calm _ i t)
theorem timCapture_calm (i t : Nat) : Calm q c (c.timCapture i t) := by
  have h : ∀ (o : Nat) (w : Word) (o' m : Nat), Calm q c ((c.setReg o w).rOr o' m) := fun o w o' m =>
    (setReg_calm c o w).trans (rOr_calm _ o' m)
  have e : ∀ d x, Calm q c d → Calm q c { d with captSave := x } := fun d x k => k.trans (.of (c := d) rfl rfl)
  exact e _ _ (h _ _ _ _)
theorem captLand_calm (i : Nat) (v : Word) : Calm q c (c.captLand i v) := (setReg_calm c _ _).trans (rOr_calm _ _ _)
theorem dmaStart_calm (k t : Nat) : Calm q c (c.dmaStart k t) := by
  unfold Core.dmaStart; dsimp only
  have h : ∀ l w, Calm q c (({ c with dma := l } : Core).addMicro w (.dmaPre k)) := fun l w =>
    (Calm.of (c := c) (d := { c with dma := l }) rfl rfl).trans (addMicro_calm _ (by intro _ _ h; cases h))
  exact ite_rel (Calm q c) (rOr_calm c _ _) (h _ _)
theorem bltSubmit_calm (t : Nat) : Calm q c (c.bltSubmit t) := by
  unfold Core.bltSubmit; dsimp only
  have e : ∀ d x, Calm q c d → Calm q c { d with blits := x } := fun d x k => k.trans (.of (c := d) rfl rfl)
  have h : ∀ d w, Calm q c d → Calm q c (d.addMicro w .blitPre) := fun d w k => k.trans (addMicro_calm d (by intro _ _ h; cases h))
  exact ite_rel (Calm q c) (h _ _ (e _ _ (setReg_calm c _ _))) (e _ _ (setReg_calm c _ _))
theorem keyOn_calm (v : Nat) : Calm q c (c.keyOn v) := by
  have e : ∀ d x, Calm q c d → Calm q c { d with mix := x } := fun d x k => k.trans (.of (c := d) rfl rfl)
  exact e _ _ (rSet_calm c (O.AUD_V_CTRL + 64 * v) 31 31 1)
theorem dmaEnd_calm (k e r a b : Nat) : Calm q c (c.dmaEnd k e r a b) := by
  unfold Core.dmaEnd; dsimp only
  have h : ∀ (l : List DmaXfer) (o x : Nat), Calm q c (({ c with dma := l } : Core).rSet o 11 8 x) :=
    fun l o x => (Calm.of rfl rfl : Calm q c { c with dma := l }).trans (rSet_calm _ _ _ _ _)
  exact ite_rel (Calm q c) ((h _ _ _).trans (pulse_calm _ _ _))
    (((((h _ _ _).trans (rSet_calm _ _ _ _ _)).trans (rOr_calm _ _ _)).trans (setReg_calm _ _ _)).trans (pulse_calm _ _ _))
theorem blitFinish_calm (e r : Nat) : Calm q c (c.blitFinish e r) := by
  unfold Core.blitFinish; dsimp only
  have h : ∀ d : Core, Calm q c d → Calm q c (match d.blits with
      | [] => d | j :: _ => d.addMicro (keyOf (max (j.stamp + 2) e) 1 1) .blitPre) := fun d hd => by
    split
    · exact hd
    · exact hd.trans (addMicro_calm d (by intro _ _ h; cases h))
  have g : ∀ (l : List BlitJob) (x y : Nat),
      Calm q c ((({ c with blits := l, blitEnd := e } : Core).rSet O.BLT_STATUS 31 16 x).rSet O.BLT_STATUS 11 8 y) := fun l x y =>
    ((Calm.of rfl rfl : Calm q c { c with blits := l, blitEnd := e }).trans (rSet_calm _ _ _ _ _)).trans (rSet_calm _ _ _ _ _)
  exact h _ (ite_rel (Calm q c) ((g _ _ _).trans (pulse_calm _ _ _)) ((g _ _ _).trans (rOr_calm _ _ _)))
theorem setSrcCfg_calm (k : Nat) (v : Word) : Calm q c (c.setSrcCfg k v) := by
  unfold Core.setSrcCfg; dsimp only
  have e : ∀ d x, Calm q c d → Calm q c { d with latched := x } := fun d x k => k.trans (.of (c := d) rfl rfl)
  have h : ∀ d : Core, Calm q c d → Calm q c (if d.srcLevel k = 0 then d.endService k else d) :=
    fun d hd => ite_rel (Calm q c) (hd.trans (endService_calm d k)) hd
  exact h _ (ite_rel (Calm q c) (e _ _ (setReg_calm c _ _)) (setReg_calm c _ _))
theorem evtAct_calm (k t : Nat) : Calm q c (c.evtAct k t) := by
  unfold Core.evtAct; dsimp only
  refine ite_rel (Calm q c) (ite_rel (Calm q c) (timTick_calm c k t) (.refl c)) ?_
  refine ite_rel (Calm q c) (addMicro_calm c (by intro _ _ h; cases h)) ?_
  refine ite_rel (Calm q c) (timRestart_calm c _ t) ?_
  refine ite_rel (Calm q c) (dmaStart_calm c _ t) ?_
  refine ite_rel (Calm q c) (bltSubmit_calm c t) ?_
  exact ite_rel (Calm q c) (keyOn_calm c _) (.refl c)
theorem lineStatus_calm (v : LineVideo) (x : Nat) : Calm q c (c.lineStatus v x) := by
  unfold Core.lineStatus; dsimp only
  have h : ∀ d : Core, Calm q c d → Calm q c ((((d.rOr O.SPR_STATUS v.sprStatus).setReg O.SPR_LINE_STATUS
      (BitVec.ofNat 32 v.lineStat)).setReg O.SPR_LINE_FLAGS (BitVec.ofNat 32 v.lineFlags)).rOr O.CMP_STATUS x) := fun d hd =>
    hd.trans ((((rOr_calm d _ _).trans (setReg_calm _ _ _)).trans (setReg_calm _ _ _)).trans (rOr_calm _ _ _))
  refine h _ ?_
  cases v.coll with
  | none => exact rOr_calm c _ _
  | some k => exact ite_rel (Calm q c) (((rOr_calm c _ _).trans (setReg_calm _ _ _)).trans (setReg_calm _ _ _)) (rOr_calm c _ _)
/-- A return completes: the thread is what its stack restores. -/
theorem endReturn_always (t d y : Nat) : (c.thread y).Returned ((c.endReturn t d).thread y) := by
  unfold Core.endReturn Core.modThread; dsimp only
  generalize hd : ({ c with claims := _ } : Core) = e
  have ht : e.threads = c.threads := by rw [← hd]
  rw [← thread_of_threads ht y]
  by_cases hy : y = t
  · subst hy
    by_cases hl : y < e.threads.length
    · rw [thread_setThread_same _ hl]
      split
      · exact ite_rel ((e.thread y).Returned) rfl rfl
      · exact .refl _
    · have z : ∀ f : Core, f.threads.length = e.threads.length → f.thread y = {} := fun f hf => by
        simp [Core.thread, List.getD_eq_getElem?_getD, List.getElem?_eq_none (hf ▸ Nat.le_of_not_lt hl)]
      rw [z e rfl, z _ (by simp [Core.setThread])]
      exact .refl _
  · rw [thread_setThread_other _ hy]; exact .refl _
/-- An effect of the instance's own state. -/
theorem micro1_calm (t : Nat) (m : Micro) : Calm (fun y => ∀ b, m ≠ .endService y b) c (c.micro1 t m) := by
  cases m with
  | srcCfg k v => exact setSrcCfg_calm c k v
  | capture i => exact .refl c
  | captLate i v => exact captLand_calm c i v
  | endService a b => exact ⟨fun y h => thread_setThread_other _ fun e => h b (e ▸ rfl), fun _ _ h => h, endReturn_always c a b⟩
  | status a b v cmp d => exact lineStatus_calm c v cmp
  | blitWm x => exact rOr_calm c _ _
  | blitEnd r => exact blitFinish_calm c t r
  | act k => exact evtAct_calm c k t
  | beam k on => exact .of rfl rfl
  | dmaCount k l => exact rSet_calm c _ _ _ _
  | dmaPre k => exact .refl c
  | blitPre => exact .refl c
  | dmaEnd k r a b => exact dmaEnd_calm c k t r a b
end core

/-- `t` differs from `s` in memory, in the queue of blit jobs and in instance n, of which the rung and the admission stay. No return
from an interrupt under way: the threads stay. No uncorrectable word: no cause is found. -/
structure Within (n : Nat) (s t : State) : Prop where
  always  : ∀ y, ((s.core n).thread y).Returned ((t.core n).thread y)
  threads : ∀ y, (s.core n).noReturn y → (t.core n).thread y = (s.core n).thread y
  returns : ∀ y, (s.core n).noReturn y → (t.core n).noReturn y
  clean   : s.clean → t.clean
  found   : s.clean → (t.inst n).found = (s.inst n).found
  rung    : (t.inst n).rung = (s.inst n).rung
  adm     : (t.inst n).adm = (s.inst n).adm
  others  : ∀ m, m ≠ n → t.inst m = s.inst m
  causes  : t.safety.found = s.safety.found
  power   : t.power = s.power
  host    : t.host = s.host
  image   : t.image = s.image

theorem Within.refl (n : Nat) (s : State) : Within n s s :=
  ⟨fun _ => .refl _, fun _ _ => rfl, fun _ => id, id, fun _ => rfl, rfl, rfl, fun _ _ => rfl, rfl, rfl, rfl, rfl⟩
theorem Within.trans {n : Nat} {a b c : State} (h : Within n a b) (k : Within n b c) : Within n a c :=
  ⟨fun y => Returned.trans (h.always y) (k.always y), fun y x => (k.threads y (h.returns y x)).trans (h.threads y x), fun y x => k.returns y (h.returns y x),
    fun x => k.clean (h.clean x), fun x => (k.found (h.clean x)).trans (h.found x), k.rung.trans h.rung, k.adm.trans h.adm,
    fun m hm => (k.others m hm).trans (h.others m hm), k.causes.trans h.causes, k.power.trans h.power, k.host.trans h.host,
    k.image.trans h.image⟩

/-- The check codes of a memory depend on these parts of the state alone. -/
theorem badOf_congr {s t : State} (hm : t.mem = s.mem) (hv : t.vault = s.vault) (m : MemId) : t.badOf m = s.badOf m := by
  cases m <;> simp [State.badOf, State.leaf?, hm, hv]
theorem clean_congr {s t : State} (hm : t.mem = s.mem) (hv : t.vault = s.vault) (h : s.clean) : t.clean := fun m => by
  rw [badOf_congr hm hv]; exact h m

/-- A change of instance n whose core is calm. -/
theorem Within.setInst {n : Nat} {s : State} {i : Inst} (h1 : Calm (fun _ => True) (s.inst n).core i.core)
    (h2 : i.found = (s.inst n).found) (h3 : i.rung = (s.inst n).rung) (h4 : i.adm = (s.inst n).adm) : Within n s (s.setInst n i) := by
  have e : (s.setInst n i).core n = i.core := congrArg Inst.core (inst_setInst_same s n i)
  exact ⟨fun y => by rw [e]; exact h1.always y, fun y _ => by rw [e]; exact h1.threads y trivial, fun y h => by rw [e]; exact h1.returns y trivial h,
    clean_congr rfl rfl, fun _ => by rw [inst_setInst_same]; exact h2, by rw [inst_setInst_same]; exact h3,
    by rw [inst_setInst_same]; exact h4, fun _ hm => inst_setInst_other s i hm, rfl, rfl, rfl, rfl⟩

/-- A calm change of the core of instance n. -/
theorem Within.modCore {n : Nat} {s : State} {f : Core → Core} (h : Calm (fun _ => True) (s.core n) (f (s.core n))) :
    Within n s (s.modCore n f) := Within.setInst h rfl rfl rfl

/-- A state that differs outside the table of instances. -/
theorem Within.of_eq {n : Nat} {s t : State} (hi : t.insts = s.insts) (hs : t.safety.found = s.safety.found)
    (hp : t.power = s.power) (hh : t.host = s.host) (hm : t.image = s.image) (hc : s.clean → t.clean) : Within n s t := by
  have e : t.core n = s.core n := congrArg Inst.core (inst_congr hi n)
  exact ⟨fun y => by rw [e]; exact .refl _, fun _ _ => by rw [e], fun _ h => by rw [e]; exact h, hc, fun _ => by rw [inst_congr hi],
    by rw [inst_congr hi], by rw [inst_congr hi], fun m _ => inst_congr hi m, hs, hp, hh, hm⟩

theorem setPf_within (s : State) (n o : Nat) (w : Word) : Within n s (s.setPf o w) := .of_eq rfl rfl rfl rfl rfl (clean_congr rfl rfl)
theorem modPf_within (s : State) (n o : Nat) (f : Word → Word) : Within n s (s.modPf o f) := setPf_within s n o _
theorem pfCount_within (s : State) (n o a b k : Nat) : Within n s (s.pfCount o a b k) := modPf_within s n o _
theorem pfOr_within (s : State) (n o m : Nat) : Within n s (s.pfOr o m) := modPf_within s n o _
theorem pool_within (s : State) (n : Nat) (m : Map Byte) : Within n s { s with pool := m } :=
  .of_eq rfl rfl rfl rfl rfl (clean_congr rfl rfl)
theorem hbm_within (s : State) (n : Nat) (m : Map Byte) : Within n s { s with hbm := m } :=
  .of_eq rfl rfl rfl rfl rfl (clean_congr rfl rfl)
theorem addRec_within (s : State) (n a b c d e : Nat) : Within n s (s.addRec a b c d e) :=
  .of_eq rfl rfl rfl rfl rfl (clean_congr rfl rfl)

theorem leaf?_map (l : List Leaf) (f : Leaf → Leaf) (h : ∀ x, (f x).extent = x.extent ∧ (f x).leaf = x.leaf) (e k : Nat) :
    (l.map f).find? (fun x => x.extent == e && x.leaf == k) = (l.find? fun x => x.extent == e && x.leaf == k).map f := by
  rw [List.find?_map]
  congr 2
  funext x
  simp [Function.comp, (h x).1, (h x).2]

/-- Corrupted bits go: none comes. -/
theorem setBad_within (s : State) (n : Nat) (m : MemId) (ce ue : List Nat) (h : (s.badOf m).2 = [] → ue = []) :
    Within n s (s.setBad m ce ue) := by
  cases m with
  | leaf e l =>
    refine .of_eq rfl rfl rfl rfl rfl fun hc k => ?_
    have hu := h (hc _)
    subst hu
    cases k with
    | leaf e' l' =>
      have hk := hc (.leaf e' l')
      simp only [State.badOf, State.leaf?, State.setBad] at hk ⊢
      rw [leaf?_map _ _ (fun x => by split <;> exact ⟨rfl, rfl⟩)]
      cases hx : s.mem.leaves.find? fun x => x.extent == e' && x.leaf == l' with
      | none => rfl
      | some x => rw [hx] at hk; simp only [Option.map_some]; split <;> first | rfl | exact hk
    | pool => exact hc .pool
    | hbm => exact hc .hbm
    | vault => exact hc .vault
    | ext => exact hc .ext
  | _ =>
    refine .of_eq rfl rfl rfl rfl rfl fun hc k => ?_
    have hu := h (hc _)
    subst hu
    cases k <;> first | rfl | exact hc .pool | exact hc .hbm | exact hc .vault | exact hc .ext | exact hc (.leaf _ _)

theorem eccRecord_within (s : State) (n : Nat) (x : WordAt) (u : Bool) (f : Nat) : Within n s (s.eccRecord x u f) := by
  unfold State.eccRecord; dsimp only
  refine ite_rel (Within n s) (.refl n s) ?_
  exact ite_rel (Within n s) (((modPf_within _ _ _ _).trans (setPf_within _ _ _ _)).trans (setPf_within _ _ _ _))
    ((modPf_within _ _ _ _).trans (setPf_within _ _ _ _))
theorem eccUe_within (s : State) (n : Nat) (x : WordAt) (f : Nat) : Within n s (s.eccUe x f) :=
  (pfCount_within s n _ _ _ _).trans (eccRecord_within _ n x true f)
theorem eccCe_within (s : State) (n : Nat) (x : WordAt) (f : Nat) : Within n s (s.eccCe x f) := by
  unfold State.eccCe
  have h : ∀ cnt ctrl info : Nat, Within n s
      (let t := (s.pfCount cnt 31 0 1).eccRecord x false f
       if (s.pf cnt).toNat < t.pfBits ctrl 31 16 && decide (t.pfBits ctrl 31 16 ≤ (t.pf cnt).toNat) then
        (t.pfOr info (2 ^ 27)).addRec 3 0 ((t.wordOwner x).getD 0xFFFF) 0xFFFF (t.errAddr x) else t) := fun cnt ctrl info =>
    ite_rel (Within n s)
      ((((pfCount_within s n _ _ _ _).trans (eccRecord_within _ n x false f)).trans (pfOr_within _ n _ _)).trans (addRec_within _ n _ _ _ _ _))
      ((pfCount_within s n _ _ _ _).trans (eccRecord_within _ n x false f))
  split <;> exact h _ _ _
theorem heal_within (s : State) (n : Nat) (m : MemId) (w : Nat) : Within n s (s.heal m w) := setBad_within s n m _ _ id

/-- One word is checked; it is found uncorrectable only if it is. -/
theorem eccWord_spec (s : State) (n : Nat) (m : MemId) (f w : Nat) :
    Within n s (s.eccWord m f w).2 ∧ (s.clean → (s.eccWord m f w).1 = false) := by
  unfold State.eccWord
  split
  · rename_i h
    exact ⟨eccUe_within s n _ f, fun hc => by rw [hc m] at h; cases h⟩
  · split
    · exact ⟨(heal_within s n m w).trans (eccCe_within _ n _ f), fun _ => rfl⟩
    · exact ⟨.refl n s, fun _ => rfl⟩

theorem eccWrite_within (s : State) (n : Nat) (m : MemId) (a len : Nat) : Within n s (s.eccWrite m a len) := by
  unfold State.eccWrite
  refine ite_rel (Within n s) (.refl n s) (loop_rel (Within.refl n) Within.trans _ _ (fun k s => ?_) s)
  dsimp only
  exact ite_rel (Within n s) (setBad_within s n m _ _ fun h => by rw [h]; rfl) (eccWord_spec s n m 0 _).1

/-- The words of a range are checked. -/
theorem eccRange_spec (s : State) (n : Nat) (m : MemId) (f a len : Nat) :
    Within n s (s.eccRange m f a len).2 ∧ (s.clean → (s.eccRange m f a len).1 = none) := by
  unfold State.eccRange
  split
  · exact ⟨.refl n s, fun _ => rfl⟩
  · refine loop_rel (R := fun x y : Option Nat × State => Within n x.2 y.2 ∧ (x.2.clean → x.1 = none → y.1 = none))
      (fun _ => ⟨.refl _ _, fun _ => id⟩) (fun h k => ⟨h.1.trans k.1, fun c x => k.2 (h.1.clean c) (h.2 c x)⟩) _ _ (fun k x => ?_)
      ((none : Option Nat), s) |> fun h => ⟨h.1, fun c => h.2 c rfl⟩
    obtain ⟨w, h⟩ := eccWord_spec x.2 n m f (a / 8 + k)
    refine ⟨w, fun c hx => ?_⟩
    simp [h c, hx]

/-- A cause is found for instance n, which only an uncorrectable word brings. -/
theorem Within.faulted {n : Nat} {s t : State} (w : Within n s t) (h : ¬ s.clean) (c a : Nat) : Within n s (t.foundFault n c a) := by
  have i : (t.foundFault n c a).inst n = { t.inst n with found := (t.inst n).found ++ [(c, a)] } := inst_modInst_same t n _
  have e : (t.foundFault n c a).core n = t.core n := by unfold State.core; rw [i]
  exact ⟨fun y => by rw [e]; exact w.always y, fun y x => by rw [e]; exact w.threads y x, fun y x => by rw [e]; exact w.returns y x,
    fun x => absurd x h, fun x => absurd x h, by rw [i]; exact w.rung, by rw [i]; exact w.adm,
    fun m hm => (inst_modInst_other t _ hm).trans (w.others m hm), w.causes, w.power, w.host, w.image⟩

theorem readChecked_within (s : State) (n : Nat) (m : MemId) (a len : Nat) : Within n s (s.readChecked n m a len) := by
  obtain ⟨w, h⟩ := eccRange_spec s n m 0 a len
  unfold State.readChecked
  split
  · rename_i u t e
    rw [e] at w h
    exact w.faulted (fun d => nomatch h d) _ _
  · rename_i t e; rw [e] at w; exact w

theorem undoCopy_within (s : State) (n r b : Nat) : Within n s (s.undoCopy n r b) := by
  unfold State.undoCopy; dsimp only
  split
  · exact .refl n s
  · split
    · exact .refl n s
    · split
      · exact .refl n s
      · rename_i cells _
        have h : ∀ t : State, Within n s t → ∀ ring cut, Within n s (match ring with
            | some ring => t.setInst n { t.inst n with ring, cut }
            | none => t.setInst n ({ t.inst n with ring := [], noUndo := true, cut := true }.modReg O.BLW_RING
                fun w => countUp w 31 16 1)) := fun t w ring cut => by
          cases ring with
          | some x => exact w.trans (.setInst (.refl _) rfl rfl rfl)
          | none => exact w.trans (.setInst (.refl _) rfl rfl rfl)
        have k : Within n s (match s.blockAt n r b with
            | .pool a => s.readChecked n .pool a (regionBlock r)
            | .hbm a => s.readChecked n .hbm a (regionBlock r)
            | .leaf e l o => s.readChecked n (.leaf e l) o (regionBlock r)) := by
          split <;> exact readChecked_within s n _ _ _
        split
        · exact h _ k (some _) _
        · exact h _ k none true

theorem undoRange_within (s : State) (n r a len : Nat) : Within n s (s.undoRange n r a len) := by
  unfold State.undoRange; dsimp only
  split
  · exact .refl n s
  · exact loop_rel (Within.refl n) Within.trans _ _ (fun k s => undoCopy_within s n r _) s

theorem wrVram_within (s : State) (n v : Nat) (d : List Byte) : Within n s (s.wrVram n v d) :=
  ((undoRange_within s n 2 v d.length).trans (eccWrite_within _ n .pool _ _)).trans (pool_within _ n _)
theorem wrWork_within (s : State) (n w : Nat) (d : List Byte) : Within n s (s.wrWork n w d) :=
  ((undoRange_within s n 3 w d.length).trans (eccWrite_within _ n .hbm _ _)).trans (hbm_within _ n _)

theorem markActive_keeps (i : Inst) (f : Nat) : (i.markActive f).core = i.core ∧ (i.markActive f).found = i.found
    ∧ (i.markActive f).rung = i.rung ∧ (i.markActive f).adm = i.adm := by
  unfold Inst.markActive; split <;> exact ⟨rfl, rfl, rfl, rfl⟩

theorem noteActivity_within (s : State) (n stamp : Nat) (b : Bool) : Within n s (s.noteActivity n stamp b) := by
  unfold State.noteActivity
  split
  · exact .setInst (by rw [(markActive_keeps _ _).1]; exact .refl _) (markActive_keeps _ _).2.1 (markActive_keeps _ _).2.2.1
      (markActive_keeps _ _).2.2.2
  · exact .refl n s

theorem landVram_within (s : State) (n stamp v : Nat) (d : List Byte) : Within n s (s.landVram n stamp v d) :=
  (wrVram_within s n v d).trans (noteActivity_within _ n _ _)

theorem landCaptures_within (s : State) (n stamp : Nat) (caps : List CapWrite) : Within n s (s.landCaptures n stamp caps) :=
  foldl_rel (Within.refl n) Within.trans _ (fun s _ => landVram_within s n stamp _ _) caps s

theorem noteJobs_within (s : State) (n : Nat) : Within n s (s.noteJobs n) := by
  unfold State.noteJobs; dsimp only
  exact ite_rel (Within n s) (.refl n s) (.of_eq rfl rfl rfl rfl rfl (clean_congr rfl rfl))

theorem dmaPre_within (s : State) (n k t : Nat) : Within n s (s.dmaPre n k t) := by
  unfold State.dmaPre; dsimp only
  split
  · split
    · exact .modCore (dmaEnd_calm _ _ _ _ _ _)
    · exact .refl n s
  · exact .refl n s
theorem blitPre_within (s : State) (n t : Nat) : Within n s (s.blitPre n t) := by
  unfold State.blitPre
  split
  · exact .refl n s
  · split
    · split
      · exact .modCore (blitFinish_calm _ _ _)
      · exact .refl n s
    · exact .refl n s

/-- What an effect changes, given that it is a return only where returns are under way. -/
theorem effect_within {s t : State} {n k : Nat} {m : Micro} (w : Within n s t)
    (hm : ∀ y, (s.core n).noReturn y → ∀ b, m ≠ .endService y b) : Within n s (t.effect n k m) := by
  have core : Within n s (t.modCore n fun c => c.micro1 k m) := by
    have c := micro1_calm (t.core n) k m
    have i : (t.modCore n fun c => c.micro1 k m).inst n = { t.inst n with core := (t.core n).micro1 k m } := inst_modInst_same t n _
    have e : (t.modCore n fun c => c.micro1 k m).core n = (t.core n).micro1 k m := congrArg Inst.core i
    exact ⟨fun y => by rw [e]; exact Returned.trans (w.always y) (c.always y), fun y x => by rw [e]; exact (c.threads y (hm y x)).trans (w.threads y x),
      fun y x => by rw [e]; exact c.returns y (hm y x) (w.returns y x), fun x => clean_congr rfl rfl (w.clean x),
      fun x => by rw [i]; exact w.found x, by rw [i]; exact w.rung, by rw [i]; exact w.adm,
      fun m hm => (inst_modInst_other t _ hm).trans (w.others m hm), w.causes, w.power, w.host, w.image⟩
  unfold State.effect
  split
  · exact w.trans (dmaPre_within t n _ k)
  · exact w.trans (blitPre_within t n k)
  · split
    · exact w.trans (.modCore (f := fun c => c.addMicro _ (.captLate _ _)) (addMicro_calm _ (by intro _ _ h; cases h)))
    · exact w.trans (.modCore (timCapture_calm _ _ _))
  · exact (w.trans (.modCore (evtAct_calm _ _ _))).trans (noteJobs_within _ n)
  · exact core

theorem afterEffect_within {s : State} {n k : Nat} {m : Micro} {r : List (Nat × Micro)} (h : (s.core n).micro = (k, m) :: r) :
    Within n s (s.afterEffect n k m r) := by
  have hm : ∀ y, (s.core n).noReturn y → ∀ b, m ≠ .endService y b := fun _ x => x (k, m) (h ▸ List.mem_cons_self ..)
  unfold State.afterEffect
  refine (effect_within (k := keyStamp k) ?_ hm).trans (.modCore (passed_calm _ k))
  have w := landCaptures_within s n (keyStamp k) (microCaps m)
  generalize s.landCaptures n (keyStamp k) (microCaps m) = t at w
  have i : (t.modCore n fun c => { c with micro := r }).inst n = { t.inst n with core := { t.core n with micro := r } } :=
    inst_modInst_same t n _
  have e : (t.modCore n fun c => { c with micro := r }).core n = { t.core n with micro := r } := by unfold State.core; rw [i]; rfl
  exact ⟨fun y => by rw [e]; exact w.always y, fun y x => by rw [e]; exact w.threads y x,
    fun y x => by rw [e]; exact fun z hz => x z (h ▸ List.mem_cons_of_mem _ hz), fun x => clean_congr rfl rfl (w.clean x),
    fun x => by rw [i]; exact w.found x, by rw [i]; exact w.rung, by rw [i]; exact w.adm,
    fun m hm => (inst_modInst_other _ _ hm).trans (w.others m hm), w.causes, w.power, w.host, w.image⟩

theorem runMicro_within {s t : State} {n : Nat} (h : s.runMicro n = some t) : Within n s t := by
  unfold State.runMicro at h
  split at h
  · cases h
  · rename_i x r e
    unfold State.runEffect at h
    split at h
    · cases h
    · split at h
      · cases h
      · exact Option.some.inj h ▸ afterEffect_within e

theorem settleFor_within (s : State) (n f : Nat) : Within n s (s.settleFor n f) := by
  induction f generalizing s with
  | zero => exact .refl n s
  | succ f ih =>
    unfold State.settleFor
    split
    · split
      · rename_i h; exact (runMicro_within h).trans (ih _)
      · exact .refl n s
    · exact .refl n s

/-- The effects that need no command stay within instance n and memory. -/
theorem settle_within (s : State) (n : Nat) : Within n s (s.settle n) := settleFor_within s n _

/-- Where no word is uncorrectable, effects within an instance detect no cause. -/
theorem Within.noCause {n : Nat} {s t : State} (h : Within n s t) (c : s.clean) (k : s.noCause) : t.noCause :=
  ⟨h.causes.trans k.1, fun m => if e : m = n then by rw [e, h.found c]; exact k.2 n else by rw [h.others m e]; exact k.2 m⟩

/-- With no effect queued, nothing happens between two events. -/
theorem settle_idle {s : State} {n : Nat} (h : (s.core n).micro = []) : s.settle n = s := by
  have hr : s.runMicro n = none := by unfold State.runMicro; rw [h]
  unfold State.settle
  generalize 2 * (s.core n).micro.length + 16 = f
  cases f with
  | zero => rfl
  | succ f => unfold State.settleFor; rw [hr]; split <;> rfl

end Sys2Proof.Laws
end

