-- ==== Sys2Proof/Laws/Issue.lean ====
section
/-! SUPPORT. What issuing one instruction word can do (R80, R307, R331, R353): a word that completes, and one that traps; the general
registers after a write. -/
namespace Sys2Proof.Laws
open Sys2Proof.Machine

/-- A thread that runs is one of the threads that the state holds. -/
theorem thread_lt {c : Core} {t : Nat} (h : (c.thread t).run = true) : t < c.threads.length := by
  refine Nat.lt_of_not_le fun hn => ?_
  have : c.thread t = {} := by simp [Core.thread, List.getD_eq_getElem?_getD, List.getElem?_eq_none hn]
  rw [this] at h; cases h

theorem thread_congr {c d : Core} (h : d.threads = c.threads) (t : Nat) : d.thread t = c.thread t := by
  unfold Core.thread; rw [h]

theorem core_modCore (s : State) (n : Nat) (f : Core → Core) : (s.modCore n f).core n = f (s.core n) := by
  unfold State.modCore State.modInst State.core; rw [inst_setInst_same]

theorem fence_within (s : State) (n : Nat) (l : List Nat) : Within n s (s.setInst n { s.inst n with fence := l }) :=
  .setInst (.refl _) rfl rfl rfl
theorem passed_within (s : State) (n k : Nat) : Within n s (s.modCore n fun c => c.passed k) := .modCore (passed_calm _ k)

/-- What issue does after a word: the thread's full-journal mark goes, and the effects whose turn it is follow. -/
theorem pass_within (s : State) (n t k : Nat) : Within n s (s.wordPass n t k) :=
  ((fence_within s n _).trans (passed_within _ n k)).trans (settle_within _ n)

/-- The end of a command keeps instances. -/
theorem icuLevels_inst (s : State) (n : Nat) : s.icuLevels.inst n = s.inst n := inst_congr (icuLevels_insts s) n

/-- A change of the core of instance n detects no cause. -/
theorem modCore_noCause {s : State} (q : s.noCause) (n : Nat) (f : Core → Core) : (s.modCore n f).noCause := by
  refine ⟨q.1, fun j => ?_⟩
  unfold State.modCore State.modInst
  by_cases h : j = n
  · subst h; rw [inst_setInst_same]; exact q.2 j
  · rw [inst_setInst_other _ _ h]; exact q.2 j

/-- State u ends a command that left core d to instance n of s: only returns from interrupts may have completed since. -/
structure EndsWith (n : Nat) (d : Core) (s u : State) : Prop where
  always  : ∀ y, (d.thread y).Returned ((u.core n).thread y)
  threads : ∀ y, d.noReturn y → (u.core n).thread y = d.thread y
  others  : ∀ j, j ≠ n → u.inst j = s.inst j

/-- A state within instance n of one without causes ends its command so. -/
theorem fin_within {s v : State} {n : Nat} (q : s.noCause) (c : s.clean) (w : Within n s v) :
    ∃ u, fin v = .next u ∧ EndsWith n (s.core n) s u := by
  have e : v.icuLevels.core n = v.core n := congrArg Inst.core (icuLevels_inst v n)
  exact ⟨_, fin_noCause (w.noCause c q), fun y => by rw [e]; exact w.always y, fun y x => by rw [e]; exact w.threads y x,
    fun m hm => (icuLevels_inst v m).trans (w.others m hm)⟩

/-- How issue goes on where a word begins. -/
theorem issue_eq {s s1 : State} {n t stamp w : Nat} {m : Nat → Bool} {body : Nat → Nat → Bool → State → WordOut}
    (b : Begins s n t stamp w s1) (hm : m w = true) : ∃ k, keyStamp k = stamp
      ∧ s.issue n t m body = s.wordEnd n t k w (body stamp w (tb ((s.core n).thread t).pc.toNat 1) s1) := by
  obtain ⟨⟨k, hk, rfl⟩, ha, hi, hf, _, _, _, _⟩ := b
  refine ⟨k, rfl, ?_⟩
  unfold State.issue
  simp only [hk, ha, hi, hf, hm, ne_eq, not_true_eq_false, decide_false, Bool.or_self, Bool.false_eq_true, if_false, if_true]

/-- A change of the core of instance n under the end of a word. -/
theorem wordPass_next {s2 : State} {n : Nat} (q : s2.noCause) (c : s2.clean) (f : Core → Core) (t k : Nat) :
    ∃ u, fin ((s2.modCore n f).wordPass n t k) = .next u ∧ EndsWith n (f (s2.core n)) s2 u := by
  obtain ⟨u, h1, h2⟩ := fin_within (modCore_noCause q n f) (clean_congr rfl rfl c) (pass_within _ n t k)
  rw [core_modCore] at h2
  exact ⟨u, h1, h2.always, h2.threads, fun j hj => (h2.others j hj).trans (inst_modInst_other s2 _ hj)⟩

/-- A word that completes. -/
theorem issue_done {s s1 s2 : State} {n t stamp w cost : Nat} {pc : Word} {m : Nat → Bool}
    {body : Nat → Nat → Bool → State → WordOut} (b : Begins s n t stamp w s1) (hm : m w = true)
    (hb : body stamp w (tb ((s.core n).thread t).pc.toNat 1) s1 = .done cost pc s2) (q : s2.noCause) (c : s2.clean) :
    ∃ u, fin (s.issue n t m body) = .next u ∧ EndsWith n ((s2.core n).advance t stamp cost pc) s2 u := by
  obtain ⟨k, rfl, e⟩ := issue_eq (body := body) b hm
  rw [e, hb]
  exact wordPass_next q c (fun c => c.advance t (keyStamp k) cost pc) t k

/-- A word that traps. -/
theorem issue_trap {s s1 s2 : State} {n t stamp w cause seg addr charge : Nat} {half : Bool} {m : Nat → Bool}
    {body : Nat → Nat → Bool → State → WordOut} (b : Begins s n t stamp w s1) (hm : m w = true)
    (hb : body stamp w (tb ((s.core n).thread t).pc.toNat 1) s1 = .trap cause seg addr charge half s2) (q : s2.noCause) (c : s2.clean) :
    ∃ u, fin (s.issue n t m body) = .next u ∧ EndsWith n ((s2.core n).trap t stamp cause seg addr charge half w) s2 u := by
  obtain ⟨k, rfl, e⟩ := issue_eq (body := body) b hm
  rw [e, hb]
  exact wordPass_next q c (fun c => c.trap t (keyStamp k) cause seg addr charge half w) t k

/-- What the end of a word leaves, where thread t alone had changed. -/
theorem EndsWith.threadLeft {n t : Nat} {s s1 u : State} {d : Core} {x : Thread} (e : EndsWith n d s u)
    (hm : d.micro = (s1.core n).micro) (ht : ∀ y, d.thread y = if y = t then x else (s1.core n).thread y)
    (ho : ∀ j, j ≠ n → s.inst j = s1.inst j) : ThreadLeft n t s1 x u :=
  ⟨fun y => ht y ▸ e.always y,
    fun y r => (e.threads y (by unfold Core.noReturn; rw [hm]; exact r)).trans (ht y),
    fun j hj => (e.others j hj).trans (ho j hj)⟩

/-- A read of a general register after a write. -/
theorem gr_setG (x : Thread) (k r : Nat) (v : Word) : (x.setG k v).gr r = if r = 0 then 0 else if r = k then v else x.gr r := by
  unfold Thread.setG Thread.gr
  by_cases hr : r = 0
  · simp [hr]
  · by_cases hk : k = 0
    · subst hk; simp [hr]
    · simp only [hr, hk, if_false]; exact get_set zeroAt x.g k r v

/-- A word that writes one register and goes on. -/
theorem issue_setReg {s s1 : State} {n t stamp w cost gd : Nat} {v : Word} {m : Nat → Bool}
    {body : Nat → Nat → Bool → State → WordOut} (b : Begins s n t stamp w s1) (hm : m w = true)
    (hb : body stamp w (tb ((s.core n).thread t).pc.toNat 1) s1 = .setReg s1 n t gd v cost) :
    NextWith (fin (s.issue n t m body)) (WordDone n t s1 stamp cost (s1.nextPc n t) (putReg (s1.gr n t) gd v)) := by
  have ht := thread_lt b.runs
  obtain ⟨u, h1, h2⟩ := issue_done b hm hb (modCore_noCause b.quiet n _) (clean_congr rfl rfl b.clean)
  obtain ⟨g, hg⟩ : ∃ g, ((s1.core n).thread t).setG gd v = { (s1.core n).thread t with g := g } := by
    unfold Thread.setG; split <;> exact ⟨_, rfl⟩
  rw [show (s1.setG n t gd v).core n = (s1.core n).modThread t fun x => x.setG gd v from core_modCore s1 n _] at h2
  have hl : t < ((s1.core n).modThread t fun x => x.setG gd v).threads.length := by
    unfold Core.modThread Core.setThread; simpa using ht
  have hx : ((s1.core n).modThread t fun x => x.setG gd v).thread t = { (s1.core n).thread t with g := g } :=
    (thread_setThread_same _ ht).trans hg
  have hd : ∀ y, (((s1.core n).modThread t fun x => x.setG gd v).advance t stamp cost (s1.nextPc n t)).thread y
      = if y = t then { (s1.core n).thread t with g := g, pc := s1.nextPc n t, pos := stamp + cost } else (s1.core n).thread y :=
    fun y => by
      unfold Core.advance
      by_cases hy : y = t
      · subst hy
        rw [Core.modThread, thread_setThread_same _ hl, hx, if_pos b.place, if_pos rfl]
      · rw [if_neg hy]
        unfold Core.modThread
        rw [thread_setThread_other _ hy, thread_setThread_other _ hy]
  have l : ThreadLeft n t s1 _ u := h2.threadLeft rfl hd fun j hj => inst_modInst_other s1 _ hj
  refine ⟨u, h1, ⟨g, l⟩, fun r => ?_⟩
  have k : (u.core n).thread t = _ := l.1 t
  rw [if_pos rfl] at k
  show ((u.core n).thread t).gr r = _
  rw [k]
  exact (congrArg (fun x : Thread => x.gr r) hg).symm.trans (gr_setG ((s1.core n).thread t) gd r v)

end Sys2Proof.Laws
end

