-- ==== Sys2Proof/Laws/Mem.lean ====
section
/-! SUPPORT. The laws of the memories: bytes written read back, every other byte stays, and each operation on a memory keeps its
canonical form. -/
namespace Sys2Proof.Laws
open Sys2Proof.Machine

/-- Reset memory has the canonical form. -/
theorem reset_memWf : State.reset.memWf = true := by decide

/-- A property of both branches is one of the choice. -/
theorem ite_pred {α : Type} {P : α → Prop} {c : Prop} [Decidable c] {a b : α} (ha : P a) (hb : P b) : P (if c then a else b) := by
  split <;> assumption

theorem wf_putBytes {m : Map Byte} (a : Nat) (b : List Byte) (h : Map.wf zeroByte m = true) : Map.wf zeroByte (putBytes m a b) = true := by
  induction b generalizing m a with
  | nil => exact h
  | cons x r ih => exact ih (a + 1) (wf_set a x h)

theorem wf_clearRange {m : Map Byte} (lo n : Nat) (h : Map.wf zeroByte m = true) : Map.wf zeroByte (clearRange m lo n) = true :=
  wf_filter _ h

theorem wf_putCells {m : Map Byte} (lo n : Nat) (c : List (Nat × Byte)) (h : Map.wf zeroByte m = true) :
    Map.wf zeroByte (putCells m lo n c) = true := by
  unfold putCells
  generalize hk : clearRange m lo n = k
  have hw : Map.wf zeroByte k = true := hk ▸ wf_clearRange lo n h
  clear hk h
  induction c generalizing k with
  | nil => exact hw
  | cons x r ih => exact ih _ (wf_set _ _ hw)

/-- Bytes written read back, and every other byte stays. -/
theorem get_putBytes (m : Map Byte) (a : Nat) (b : List Byte) (x : Nat) :
    (putBytes m a b).get zeroByte x = if a ≤ x ∧ x < a + b.length then b.getD (x - a) 0 else m.get zeroByte x := by
  induction b generalizing m a with
  | nil => simp only [putBytes, List.length_nil, Nat.add_zero]; rw [if_neg (by omega)]
  | cons y r ih =>
    simp only [putBytes, ih, get_set, List.length_cons]
    by_cases h1 : x = a
    · subst h1
      rw [if_neg (by omega), if_pos rfl, if_pos (by omega), Nat.sub_self]; rfl
    · by_cases h2 : a + 1 ≤ x ∧ x < a + 1 + r.length
      · rw [if_pos h2, if_pos (by omega), show x - a = (x - (a + 1)) + 1 by omega]; rfl
      · rw [if_neg h2, if_neg h1, if_neg (by omega)]

/-- The bytes of Pool and HBM stay. -/
def SameMem (s t : State) : Prop := t.pool = s.pool ∧ t.hbm = s.hbm

theorem SameMem.refl (s : State) : SameMem s s := ⟨rfl, rfl⟩
theorem SameMem.trans {a b c : State} (h : SameMem a b) (k : SameMem b c) : SameMem a c := ⟨k.1.trans h.1, k.2.trans h.2⟩
theorem modPf_same (s : State) (o : Nat) (f : Word → Word) : SameMem s (s.modPf o f) := ⟨rfl, rfl⟩
theorem setPf_same (s : State) (o : Nat) (w : Word) : SameMem s (s.setPf o w) := ⟨rfl, rfl⟩
theorem setInst_same (s : State) (n : Nat) (i : Inst) : SameMem s (s.setInst n i) := ⟨rfl, rfl⟩

theorem addRec_same (s : State) (k c n u a : Nat) : SameMem s (s.addRec k c n u a) := ⟨rfl, rfl⟩

theorem pfCount_same (s : State) (o a b k : Nat) : SameMem s (s.pfCount o a b k) := modPf_same s o _
theorem pfOr_same (s : State) (o m : Nat) : SameMem s (s.pfOr o m) := modPf_same s o _
theorem foundFault_same (s : State) (n c a : Nat) : SameMem s (s.foundFault n c a) := setInst_same s n _
theorem setBad_same (s : State) (m : MemId) (ce ue : List Nat) : SameMem s (s.setBad m ce ue) := by cases m <;> exact ⟨rfl, rfl⟩

theorem eccRecord_same (s : State) (x : WordAt) (ue : Bool) (f : Nat) : SameMem s (s.eccRecord x ue f) := by
  unfold State.eccRecord; dsimp only
  exact ite_pred (.refl _) (ite_pred (((modPf_same _ _ _).trans (setPf_same _ _ _)).trans (setPf_same _ _ _))
    ((modPf_same _ _ _).trans (setPf_same _ _ _)))

theorem eccCe_same (s : State) (x : WordAt) (f : Nat) : SameMem s (s.eccCe x f) := by
  unfold State.eccCe
  have h : ∀ o, SameMem s ((s.pfCount o 31 0 1).eccRecord x false f) := fun o => (pfCount_same s o _ _ _).trans (eccRecord_same _ _ _ _)
  split <;> exact ite_pred (((h _).trans (pfOr_same _ _ _)).trans (addRec_same _ _ _ _ _ _)) (h _)

theorem eccWord_same (s : State) (m : MemId) (f w : Nat) : SameMem s (s.eccWord m f w).2 := by
  unfold State.eccWord
  split
  · exact (pfCount_same s _ _ _ _).trans (eccRecord_same _ _ _ _)
  · split
    · exact (setBad_same s m _ _).trans (eccCe_same _ _ f)
    · exact .refl s

/-- Check codes leave the memories (R406). -/
theorem eccWrite_mem (s : State) (m : MemId) (a n : Nat) : SameMem s (s.eccWrite m a n) := by
  unfold State.eccWrite
  exact ite_pred (.refl s) (loop_rel SameMem.refl SameMem.trans _ _
    (fun _ s => ite_pred (setBad_same s m _ _) (eccWord_same s m _ _)) s)

theorem eccRange_same (s : State) (m : MemId) (f a n : Nat) : SameMem s (s.eccRange m f a n).2 := by
  unfold State.eccRange
  exact ite_pred (P := fun r : Option Nat × State => SameMem s r.2) (.refl s)
    (loop_rel (R := fun x y : Option Nat × State => SameMem x.2 y.2) (fun _ => .refl _) (fun h k => h.trans k) _ _
      (fun _ x => eccWord_same x.2 m f _) ((none : Option Nat), s))

theorem readChecked_same (s : State) (n : Nat) (m : MemId) (a len : Nat) : SameMem s (s.readChecked n m a len) := by
  have h := eccRange_same s m 0 a len
  unfold State.readChecked
  split <;> rename_i e <;> rw [e] at h
  · exact h.trans (foundFault_same _ n _ _)
  · exact h

theorem undoCopy_mem (s : State) (n r b : Nat) : SameMem s (s.undoCopy n r b) := by
  unfold State.undoCopy
  dsimp only
  repeat' split
  all_goals first | exact .refl _ | exact (readChecked_same s n _ _ _).trans (setInst_same _ n _)

/-- Undo copies leave the memories. -/
theorem undoRange_mem (s : State) (n r a len : Nat) : SameMem s (s.undoRange n r a len) := by
  unfold State.undoRange
  dsimp only
  split
  · exact .refl _
  · exact loop_rel SameMem.refl SameMem.trans _ _ (fun _ s => undoCopy_mem s n r _) s

/-- Writes of an instance's memories keep the form, and each goes to one memory. -/
theorem wf_wrVram {s : State} (n v : Nat) (d : List Byte) (h : Map.wf zeroByte s.pool = true) :
    Map.wf zeroByte (s.wrVram n v d).pool = true ∧ (s.wrVram n v d).hbm = s.hbm := by
  refine ⟨wf_putBytes _ _ ?_, ?_⟩
  · rw [(eccWrite_mem _ _ _ _).1, (undoRange_mem _ _ _ _ _).1]; exact h
  · exact (eccWrite_mem _ _ _ _).2.trans (undoRange_mem _ _ _ _ _).2

theorem wf_wrWork {s : State} (n w : Nat) (d : List Byte) (h : Map.wf zeroByte s.hbm = true) :
    Map.wf zeroByte (s.wrWork n w d).hbm = true ∧ (s.wrWork n w d).pool = s.pool := by
  refine ⟨wf_putBytes _ _ ?_, ?_⟩
  · rw [(eccWrite_mem _ _ _ _).2, (undoRange_mem _ _ _ _ _).2]; exact h
  · exact (eccWrite_mem _ _ _ _).1.trans (undoRange_mem _ _ _ _ _).1

theorem wf_wrEcho {s : State} (n e : Nat) (d : List Byte) (h : Map.wf zeroByte s.hbm = true) :
    Map.wf zeroByte (s.wrEcho n e d).hbm = true ∧ (s.wrEcho n e d).pool = s.pool := by
  refine ⟨wf_putBytes _ _ ?_, ?_⟩
  · rw [(eccWrite_mem _ _ _ _).2, (undoRange_mem _ _ _ _ _).2]; exact h
  · exact (eccWrite_mem _ _ _ _).1.trans (undoRange_mem _ _ _ _ _).1

/-- A block put back keeps the memories' form. -/
theorem wf_putBlock {s : State} (n r b : Nat) (c : List (Nat × Byte)) (hp : Map.wf zeroByte s.pool = true)
    (hh : Map.wf zeroByte s.hbm = true) :
    Map.wf zeroByte (s.putBlock n r b c).pool = true ∧ Map.wf zeroByte (s.putBlock n r b c).hbm = true := by
  unfold State.putBlock
  split
  · exact ⟨wf_putCells _ _ _ hp, hh⟩
  · exact ⟨hp, wf_putCells _ _ _ hh⟩
  · split <;> exact ⟨hp, hh⟩

/-- Writes of the mover and of the stream keep the form. -/
theorem wf_wrHbm {s : State} (a : Nat) (d : List Byte) (h : Map.wf zeroByte s.hbm = true) : Map.wf zeroByte (s.wrHbm a d).hbm = true := by
  unfold State.wrHbm
  exact wf_putBytes _ _ (by first | exact h | (rw [(eccWrite_mem _ _ _ _).2]; exact h))

/-- Loss of the Pool in Doze keeps the form (R503). -/
theorem wf_poolKept {m : Map Byte} (p : Nat × Byte → Bool) (h : Map.wf zeroByte m = true) : Map.wf zeroByte (m.filter p) = true :=
  wf_filter p h

end Sys2Proof.Laws
end

