-- ==== Sys2Proof/WellFormed.lean ====
section
/-! DEFINITION. When a command is well formed: its operands lie in the ranges that the manual gives them (R1, R12, R13, R305, R306). The
meanings do not rest on it: a command outside it changes nothing, or acts as the low bits of its operands say. -/
namespace Sys2Proof

/-- An instance number (R1). -/
def wfInst (n : Nat) : Bool := decide (n < 512)
/-- A thread of an instance (R301). -/
def wfThread (n t : Nat) : Bool := wfInst n && decide (t < 4)
/-- The formats of R305 and R306: register numbers have 5 bits, and the other fields the bits of their format. -/
def FmtR.wf (f : FmtR) : Bool := decide (f.gd < 32) && decide (f.ga < 32) && decide (f.gb < 32) && decide (f.rsv < 16)
/-- Format L-S. -/
def FmtSel.wf (f : FmtSel) : Bool :=
  decide (f.gd < 32) && decide (f.ga < 32) && decide (f.gb < 32) && decide (f.gc < 32) && decide (f.rsv < 32)
/-- Format L-Y. -/
def FmtY.wf (f : FmtY) : Bool := decide (f.gd < 32) && decide (f.ga < 32) && decide (f.sr < 32) && decide (f.rsv < 1024)
/-- Format L-I. -/
def FmtI.wf (f : FmtI) : Bool := decide (f.gd < 32) && decide (f.ga < 32) && decide (f.imm < 32768)
/-- Format L-M. -/
def FmtM.wf (f : FmtM) : Bool := decide (f.gd < 32) && decide (f.ga < 32) && decide (f.seg < 8) && decide (f.imm < 4096)
/-- Format L-B. -/
def FmtB.wf (f : FmtB) : Bool := decide (f.gc < 32) && decide (f.disp < 1048576)
/-- Format L-U. -/
def FmtU.wf (f : FmtU) : Bool := decide (f.gd < 32) && decide (f.imm < 1048576)
/-- Format L-J. -/
def FmtJ.wf (f : FmtJ) : Bool := decide (f.disp < 33554432)
/-- A pair. -/
def FmtP.wf (f : FmtP) : Bool := decide (f.a < 32768) && decide (f.b15 < 2) && decide (f.b < 32768)
/-- A path to the registers of an instance window: the host's two, or one of four threads. -/
def Path.winWf : Path → Bool
  | .pf | .vf => true
  | .mgt _ => false
  | .prog t => decide (t < 4)
/-- A word lies in its memory (R401, R413, R414, R420, R421). -/
def WordAt.wf (w : WordAt) : Bool :=
  match w.mem with
  | .pool => decide (w.word < 2 ^ 24)
  | .hbm => decide (w.word < 0x120000000)
  | .vault => decide (w.word < 2 ^ 19)
  | .ext => decide (w.word < 2 ^ 18)
  | .leaf e l => decide (e < 131072) && decide (l < 256) && decide (w.word < 8192)
/-- A path and an address that it can name (R13, R464, R465, R549). -/
def Path.reaches : Path → RegAddr → Bool
  | .pf, .pf off => decide (off < 0x4000000)
  | .pf, .win n off => wfInst n && decide (off < 0x10000)
  | .vf, .win n off => wfInst n && decide (off < 0x10000)
  | .vf, .bar2 n off => wfInst n && decide (off < 0x40000)
  | .mgt k, .pf off => decide (k < 2) && decide (0xB00000 ≤ off) && decide (off < 0xC00000)
  | .prog t, .win n off => wfThread n t && decide (off < 0x10000)
  | .pf, .cfg fn _ => decide (fn = 0)
  | .vf, .cfg fn _ => decide (0 < fn) && decide (fn < 513)
  | _, _ => false
/-- The widths of an access in bytes (R3). -/
def wfWidth (w : Nat) : Bool := [1, 2, 4, 8].contains w
/-- A boot names units of the device: 20 renderers, 4 compressors, 8 blit engines, 66 cores, 32 Pool bank groups (R1). -/
def BootRun.wf (r : BootRun) : Bool :=
  decide (r.renderers < 2 ^ 20) && decide (r.comps < 2 ^ 4) && decide (r.blits < 2 ^ 8) && decide (r.cores < 2 ^ 66)
    && decide (r.poolFail < 2 ^ 32)
/-- Bytes that the host's memory answers with, of a given number, or fewer where a read fails. -/
def wfUpTo (n : Nat) (d : List Byte) : Bool := decide (d.length ≤ n)

/-- The operands of a command lie in their ranges. -/
def Instr.wf (i : Instr) : Bool :=
  match i with
  | .registerWrite p a width v => p.reaches a && wfWidth width && decide (v < 256 ^ width)
  | .readClear p a width => p.reaches a && wfWidth width
  | .coldPowerUp straps => decide (straps < 8)
  | .powerDown => true
  | .perstAssert => true
  | .perstDeassert straps => decide (straps < 8)
  | .hotReset _ => true
  | .boot r => r.wf
  | .loadHost image _ _ _ => (image.getD []).length ≤ 507904
  | .loadSlot _ _ _ => true
  | .writeSlot image _ => (image.getD []).length ≤ 507904
  | .sealSlot _ _ => true
  | .eraseSlot _ => true
  | .fuseArm _ => true
  | .reservedOpcode n t _ => wfThread n t
  | .sel n t f => wfThread n t && f.wf
  | .lui n t f => wfThread n t && f.wf
  | .addi n t f => wfThread n t && f.wf
  | .andi n t f => wfThread n t && f.wf
  | .ori n t f => wfThread n t && f.wf
  | .xori n t f => wfThread n t && f.wf
  | .cmpeqi n t f => wfThread n t && f.wf
  | .cmpnei n t f => wfThread n t && f.wf
  | .cmplti n t f => wfThread n t && f.wf
  | .cmpltui n t f => wfThread n t && f.wf
  | .shli n t f => wfThread n t && f.wf
  | .shri n t f => wfThread n t && f.wf
  | .sari n t f => wfThread n t && f.wf
  | .muli n t f => wfThread n t && f.wf
  | .lb n t f => wfThread n t && f.wf
  | .lbu n t f => wfThread n t && f.wf
  | .lh n t f => wfThread n t && f.wf
  | .lhu n t f => wfThread n t && f.wf
  | .lw n t f => wfThread n t && f.wf
  | .ld n t f => wfThread n t && f.wf
  | .aadd n t f => wfThread n t && f.wf
  | .aswp n t f => wfThread n t && f.wf
  | .sb n t f => wfThread n t && f.wf
  | .sh n t f => wfThread n t && f.wf
  | .sw n t f => wfThread n t && f.wf
  | .sd n t f => wfThread n t && f.wf
  | .bz n t f => wfThread n t && f.wf
  | .bnz n t f => wfThread n t && f.wf
  | .dbnz n t f => wfThread n t && f.wf
  | .j n t f => wfThread n t && f.wf
  | .call n t f => wfThread n t && f.wf
  | .jalr n t f => wfThread n t && f.wf
  | .add n t f => wfThread n t && f.wf
  | .sub n t f => wfThread n t && f.wf
  | .and n t f => wfThread n t && f.wf
  | .or n t f => wfThread n t && f.wf
  | .xor n t f => wfThread n t && f.wf
  | .andn n t f => wfThread n t && f.wf
  | .shl n t f => wfThread n t && f.wf
  | .shr n t f => wfThread n t && f.wf
  | .sar n t f => wfThread n t && f.wf
  | .rol n t f => wfThread n t && f.wf
  | .ror n t f => wfThread n t && f.wf
  | .cmpeq n t f => wfThread n t && f.wf
  | .cmpne n t f => wfThread n t && f.wf
  | .cmplt n t f => wfThread n t && f.wf
  | .cmpltu n t f => wfThread n t && f.wf
  | .cmple n t f => wfThread n t && f.wf
  | .cmpleu n t f => wfThread n t && f.wf
  | .min n t f => wfThread n t && f.wf
  | .max n t f => wfThread n t && f.wf
  | .minu n t f => wfThread n t && f.wf
  | .maxu n t f => wfThread n t && f.wf
  | .mul n t f => wfThread n t && f.wf
  | .mulh n t f => wfThread n t && f.wf
  | .mulhu n t f => wfThread n t && f.wf
  | .divs n t f => wfThread n t && f.wf
  | .divu n t f => wfThread n t && f.wf
  | .carry n t f => wfThread n t && f.wf
  | .borrow n t f => wfThread n t && f.wf
  | .adds n t f => wfThread n t && f.wf
  | .subs n t f => wfThread n t && f.wf
  | .neg n t f => wfThread n t && f.wf
  | .not n t f => wfThread n t && f.wf
  | .abs n t f => wfThread n t && f.wf
  | .clz n t f => wfThread n t && f.wf
  | .ctz n t f => wfThread n t && f.wf
  | .popc n t f => wfThread n t && f.wf
  | .par n t f => wfThread n t && f.wf
  | .brev n t f => wfThread n t && f.wf
  | .brev8 n t f => wfThread n t && f.wf
  | .bswap n t f => wfThread n t && f.wf
  | .sextb n t f => wfThread n t && f.wf
  | .sexth n t f => wfThread n t && f.wf
  | .zexth n t f => wfThread n t && f.wf
  | .crc32b n t f => wfThread n t && f.wf
  | .crc32w n t f => wfThread n t && f.wf
  | .crc16b n t f => wfThread n t && f.wf
  | .nop n t f => wfThread n t && f.wf
  | .wait n t f => wfThread n t && f.wf
  | .iret n t f => wfThread n t && f.wf
  | .trap n t f => wfThread n t && f.wf
  | .mfsr n t f => wfThread n t && f.wf
  | .mtsr n t f => wfThread n t && f.wf
  | .stop n t f => wfThread n t && f.wf
  | .pair n t f => wfThread n t && f.wf
  | .threadRunWrite p n _ => wfInst n && p.winWf
  | .instTRegisterWrite p n t off _ => wfThread n t && (p.winWf && decide (off < 0x100))
  | .interruptEntry n t => wfThread n t
  | .waitWake n t => wfThread n t
  | .icuClaim n t => wfThread n t
  | .icuEoi p n _ => wfInst n && p.winWf
  | .icuSrcCfgWrite p n i _ => wfInst n && (p.winWf && decide (i < 64))
  | .timCtrlWrite p n i _ => wfInst n && (p.winWf && decide (i < 4))
  | .timerTick n i => wfInst n && decide (i < 4)
  | .timCaptRead p n i => wfInst n && (p.winWf && decide (i < 4))
  | .beamTimerFire n i => wfInst n && decide (i < 4)
  | .eventPulse n i => wfInst n && decide (i < 44)
  | .evtSw p n _ => wfInst n && p.winWf
  | .threeFlopPulseAction n i => wfInst n && decide (i < 33)
  | .cdcInstModeWrite n _ => wfInst n
  | .vidVcLoRead p n => wfInst n && p.winWf
  | .vidTimingWrite p n _ => wfInst n && p.winWf
  | .hostWriteLand n => wfInst n
  | .frameRelease n => wfInst n
  | .pacingDeadlineExpire n => wfInst n
  | .vidPaceReanchor n _ => wfInst n
  | .lineStatePoint n => wfInst n
  | .frameLatch n => wfInst n
  | .cmpCommit p n _ => wfInst n && p.winWf
  | .lineDispatch n k => wfInst n && decide (k < 20)
  | .lineRenderDone k => decide (k < 20)
  | .journalRetire n => wfInst n
  | .engineBeatLand n => wfInst n
  | .rendererRotation s _ => decide (s < 4)
  | .rendererTestDone s _ => decide (s < 4)
  | .blitEngineTest k _ => decide (k < 8)
  | .coreTest k _ => decide (k < 66)
  | .bltSubmit p n _ => wfInst n && p.winWf
  | .blitJobCreditWait n => wfInst n
  | .blitJobTake k => decide (k < 8)
  | .blitJobStart n => wfInst n
  | .blitBeat n => wfInst n
  | .blitSetAside k => decide (k < 8)
  | .blitResume k => decide (k < 8)
  | .dmaStart p n i _ => wfInst n && (p.winWf && decide (i < 4))
  | .dmaCheck n i => wfInst n && decide (i < 4)
  | .dmaBeat n => wfInst n
  | .audioSample n => wfInst n
  | .audRestart p n i _ => wfInst n && (p.winWf && decide (i < 16))
  | .audSampleLoRead p n => wfInst n && p.winWf
  | .streamSlotClaim n => wfInst n
  | .compressRow s => decide (s < 4)
  | .packetComplete n => wfInst n
  | .packetMove n => wfInst n
  | .whistleWatchdogExpire n => wfInst n
  | .bypassBlockMove n => wfInst n
  | .monitorFrameStart k => decide (k < 2)
  | .monitorSlotRelease k => decide (k < 2)
  | .dpLinkTrain k lanes rate => decide (k < 2) && decide (lanes < 5) && decide (rate < 5)
  | .hpdEvent k _ => decide (k < 2)
  | .cmpBellCommit n _ => wfInst n
  | .bellBankSwitch n => wfInst n
  | .bellSurfaceWrite off width v => decide (off < 0x3000) && wfWidth width && decide (v < 256 ^ width)
  | .checkpoint n => wfInst n
  | .undoCopy n region _ => wfInst n && (decide (2 ≤ region) && decide (region ≤ 5))
  | .auditRun n slot again _ => wfInst n && (decide (slot < 16) && decide (again < 16))
  | .hold n => wfInst n
  | .holdNow n => wfInst n
  | .play n _ => wfInst n
  | .bench n _ => wfInst n
  | .park n _ => wfInst n
  | .shelve n => wfInst n
  | .rewind n => wfInst n
  | .instReset n => wfInst n
  | .adopt n => wfInst n
  | .rungCommandDequeue n => wfInst n
  | .cmdEntry n entry => wfInst n && decide (entry.length = 32)
  | .inputArrive n entry => wfInst n && decide (entry.length = 64)
  | .extWrite => true
  | .extRead => true
  | .extFlush => true
  | .extDrop => true
  | .extFetch leaves => decide (leaves.length ≤ 256) && leaves.all fun l => wfUpTo 65536 (l.getD [])
  | .extSpanWrite _ n _ _ => wfInst n
  | .leafMove extent leaf content => decide (extent < 131072) && decide (leaf < 256) && wfUpTo 65536 (content.getD [])
  | .moverCopy r desc _ => decide (r < 4) && decide (desc.length = 32)
  | .moverFill r desc => decide (r < 4) && decide (desc.length = 32)
  | .moverDescriptorComplete r => decide (r < 4)
  | .hstMvTail r _ => decide (r < 4)
  | .moverRingDisable r => decide (r < 4)
  | .moverRingResume r => decide (r < 4)
  | .hstVfRingEnable _ n r _ => wfInst n && decide (r < 5)
  | .hstVfDb _ n r _ => wfInst n && decide (r < 5)
  | .irqDelayExpire n => wfInst n
  | .ringReadFail n r => wfInst n && decide (r < 2)
  | .flr n => wfInst n
  | .vfEnableClear count => decide (count < 513)
  | .busMasterEnableChange fn _ => decide (fn < 513)
  | .unsupportedRequest p a => p.reaches a
  | .poisonedWrite p a => p.reaches a
  | .linkTrain lanes rate _ => decide (lanes < 9) && decide (rate < 7)
  | .channelWatchdogExpire k => decide (k < 16)
  | .powerRun => true
  | .retain => true
  | .doze => true
  | .idleEnter => true
  | .idleExit => true
  | .rampStart => true
  | .rampEnd d => decide (d < 15)
  | .drainComplete d => decide (d < 15)
  | .drainForced d => decide (d < 15)
  | .linkSleepEnter => true
  | .linkSleepExit => true
  | .scrubStep upsets => upsets.all fun u => u.1.wf
  | .poolSelfTest g _ => decide (g < 32)
  | .hbmPatrolScrub => true
  | .injectCe => true
  | .injectUe => true
  | .lockstepMismatch k => decide (k < 2)
  | .mgtHeartbeat => true
  | .mgtWatchdog => true
  | .clockMonitorWindow _ count _ => decide (count < 65536)
  | .voltageSample _ _ => true
  | .tempCrossing _ => true
  | .thermtrip => true
  | .tamperAssert i => decide (i < 2)
  | .tamperWipeDone => true
  | .hbmLinkLoss => true
  | .safForce _ => true
  | .safTestReq _ => true
  | .testStart _ => true
  | .testDefer => true
  | .testDone _ => true
  | .gpioCfgWrite _ p _ => decide (p < 48)
  | .gpioSwitchSettle p => decide (p < 48)
  | .gpioTgl _ w _ => decide (w < 2)
  | .gpioLockKey _ _ => true
  | .gpioLockedWrite _ w _ => decide (w < 2)
  | .gpioEdge p _ closed => decide (p < 48) && decide (closed < 16)
  | .fwInfo => true
  | .flashWrite copy again _ => wfUpTo 67108864 (copy.getD []) && wfUpTo 67108864 (again.getD [])
  | .flashErase => true
  | .jtagBypass => true
  | .idcode => true
  | .samplePreload v => decide (v < 2 ^ 48)
  | .extest v => decide (v < 2 ^ 48)
  | .clampInstruction => true
  | .highz => true
  | .dpLinkLoss k => decide (k < 2)
  | .i2sBlockDrain k => decide (k < 2)
  | .adaptiveVoltageScaling _ => true
  | .coreParityFault c p => decide (c < 66) && decide (p < 8)
  | .memorySpaceEnableChange fn _ => decide (fn < 513)

/-- The instance that a command names. -/
def Instr.instance? (i : Instr) : Option Nat :=
  match i with
  | .registerWrite _ _ _ _ => none
  | .readClear _ _ _ => none
  | .coldPowerUp _ => none
  | .powerDown => none
  | .perstAssert => none
  | .perstDeassert _ => none
  | .hotReset _ => none
  | .boot _ => none
  | .loadHost _ _ _ _ => none
  | .loadSlot _ _ _ => none
  | .writeSlot _ _ => none
  | .sealSlot _ _ => none
  | .eraseSlot _ => none
  | .fuseArm _ => none
  | .reservedOpcode n _ _ => some n
  | .sel n _ _ => some n
  | .lui n _ _ => some n
  | .addi n _ _ => some n
  | .andi n _ _ => some n
  | .ori n _ _ => some n
  | .xori n _ _ => some n
  | .cmpeqi n _ _ => some n
  | .cmpnei n _ _ => some n
  | .cmplti n _ _ => some n
  | .cmpltui n _ _ => some n
  | .shli n _ _ => some n
  | .shri n _ _ => some n
  | .sari n _ _ => some n
  | .muli n _ _ => some n
  | .lb n _ _ => some n
  | .lbu n _ _ => some n
  | .lh n _ _ => some n
  | .lhu n _ _ => some n
  | .lw n _ _ => some n
  | .ld n _ _ => some n
  | .aadd n _ _ => some n
  | .aswp n _ _ => some n
  | .sb n _ _ => some n
  | .sh n _ _ => some n
  | .sw n _ _ => some n
  | .sd n _ _ => some n
  | .bz n _ _ => some n
  | .bnz n _ _ => some n
  | .dbnz n _ _ => some n
  | .j n _ _ => some n
  | .call n _ _ => some n
  | .jalr n _ _ => some n
  | .add n _ _ => some n
  | .sub n _ _ => some n
  | .and n _ _ => some n
  | .or n _ _ => some n
  | .xor n _ _ => some n
  | .andn n _ _ => some n
  | .shl n _ _ => some n
  | .shr n _ _ => some n
  | .sar n _ _ => some n
  | .rol n _ _ => some n
  | .ror n _ _ => some n
  | .cmpeq n _ _ => some n
  | .cmpne n _ _ => some n
  | .cmplt n _ _ => some n
  | .cmpltu n _ _ => some n
  | .cmple n _ _ => some n
  | .cmpleu n _ _ => some n
  | .min n _ _ => some n
  | .max n _ _ => some n
  | .minu n _ _ => some n
  | .maxu n _ _ => some n
  | .mul n _ _ => some n
  | .mulh n _ _ => some n
  | .mulhu n _ _ => some n
  | .divs n _ _ => some n
  | .divu n _ _ => some n
  | .carry n _ _ => some n
  | .borrow n _ _ => some n
  | .adds n _ _ => some n
  | .subs n _ _ => some n
  | .neg n _ _ => some n
  | .not n _ _ => some n
  | .abs n _ _ => some n
  | .clz n _ _ => some n
  | .ctz n _ _ => some n
  | .popc n _ _ => some n
  | .par n _ _ => some n
  | .brev n _ _ => some n
  | .brev8 n _ _ => some n
  | .bswap n _ _ => some n
  | .sextb n _ _ => some n
  | .sexth n _ _ => some n
  | .zexth n _ _ => some n
  | .crc32b n _ _ => some n
  | .crc32w n _ _ => some n
  | .crc16b n _ _ => some n
  | .nop n _ _ => some n
  | .wait n _ _ => some n
  | .iret n _ _ => some n
  | .trap n _ _ => some n
  | .mfsr n _ _ => some n
  | .mtsr n _ _ => some n
  | .stop n _ _ => some n
  | .pair n _ _ => some n
  | .threadRunWrite _ n _ => some n
  | .instTRegisterWrite _ n _ _ _ => some n
  | .interruptEntry n _ => some n
  | .waitWake n _ => some n
  | .icuClaim n _ => some n
  | .icuEoi _ n _ => some n
  | .icuSrcCfgWrite _ n _ _ => some n
  | .timCtrlWrite _ n _ _ => some n
  | .timerTick n _ => some n
  | .timCaptRead _ n _ => some n
  | .beamTimerFire n _ => some n
  | .eventPulse n _ => some n
  | .evtSw _ n _ => some n
  | .threeFlopPulseAction n _ => some n
  | .cdcInstModeWrite n _ => some n
  | .vidVcLoRead _ n => some n
  | .vidTimingWrite _ n _ => some n
  | .hostWriteLand n => some n
  | .frameRelease n => some n
  | .pacingDeadlineExpire n => some n
  | .vidPaceReanchor n _ => some n
  | .lineStatePoint n => some n
  | .frameLatch n => some n
  | .cmpCommit _ n _ => some n
  | .lineDispatch n _ => some n
  | .lineRenderDone _ => none
  | .journalRetire n => some n
  | .engineBeatLand n => some n
  | .rendererRotation _ _ => none
  | .rendererTestDone _ _ => none
  | .blitEngineTest _ _ => none
  | .coreTest _ _ => none
  | .bltSubmit _ n _ => some n
  | .blitJobCreditWait n => some n
  | .blitJobTake _ => none
  | .blitJobStart n => some n
  | .blitBeat n => some n
  | .blitSetAside _ => none
  | .blitResume _ => none
  | .dmaStart _ n _ _ => some n
  | .dmaCheck n _ => some n
  | .dmaBeat n => some n
  | .audioSample n => some n
  | .audRestart _ n _ _ => some n
  | .audSampleLoRead _ n => some n
  | .streamSlotClaim n => some n
  | .compressRow _ => none
  | .packetComplete n => some n
  | .packetMove n => some n
  | .whistleWatchdogExpire n => some n
  | .bypassBlockMove n => some n
  | .monitorFrameStart _ => none
  | .monitorSlotRelease _ => none
  | .dpLinkTrain _ _ _ => none
  | .hpdEvent _ _ => none
  | .cmpBellCommit n _ => some n
  | .bellBankSwitch n => some n
  | .bellSurfaceWrite _ _ _ => none
  | .checkpoint n => some n
  | .undoCopy n _ _ => some n
  | .auditRun n _ _ _ => some n
  | .hold n => some n
  | .holdNow n => some n
  | .play n _ => some n
  | .bench n _ => some n
  | .park n _ => some n
  | .shelve n => some n
  | .rewind n => some n
  | .instReset n => some n
  | .adopt n => some n
  | .rungCommandDequeue n => some n
  | .cmdEntry n _ => some n
  | .inputArrive n _ => some n
  | .extWrite => none
  | .extRead => none
  | .extFlush => none
  | .extDrop => none
  | .extFetch _ => none
  | .extSpanWrite _ n _ _ => some n
  | .leafMove _ _ _ => none
  | .moverCopy _ _ _ => none
  | .moverFill _ _ => none
  | .moverDescriptorComplete _ => none
  | .hstMvTail _ _ => none
  | .moverRingDisable _ => none
  | .moverRingResume _ => none
  | .hstVfRingEnable _ n _ _ => some n
  | .hstVfDb _ n _ _ => some n
  | .irqDelayExpire n => some n
  | .ringReadFail n _ => some n
  | .flr n => some n
  | .vfEnableClear _ => none
  | .busMasterEnableChange _ _ => none
  | .unsupportedRequest _ _ => none
  | .poisonedWrite _ _ => none
  | .linkTrain _ _ _ => none
  | .channelWatchdogExpire _ => none
  | .powerRun => none
  | .retain => none
  | .doze => none
  | .idleEnter => none
  | .idleExit => none
  | .rampStart => none
  | .rampEnd _ => none
  | .drainComplete _ => none
  | .drainForced _ => none
  | .linkSleepEnter => none
  | .linkSleepExit => none
  | .scrubStep _ => none
  | .poolSelfTest _ _ => none
  | .hbmPatrolScrub => none
  | .injectCe => none
  | .injectUe => none
  | .lockstepMismatch _ => none
  | .mgtHeartbeat => none
  | .mgtWatchdog => none
  | .clockMonitorWindow _ _ _ => none
  | .voltageSample _ _ => none
  | .tempCrossing _ => none
  | .thermtrip => none
  | .tamperAssert _ => none
  | .tamperWipeDone => none
  | .hbmLinkLoss => none
  | .safForce _ => none
  | .safTestReq _ => none
  | .testStart _ => none
  | .testDefer => none
  | .testDone _ => none
  | .gpioCfgWrite _ _ _ => none
  | .gpioSwitchSettle _ => none
  | .gpioTgl _ _ _ => none
  | .gpioLockKey _ _ => none
  | .gpioLockedWrite _ _ _ => none
  | .gpioEdge _ _ _ => none
  | .fwInfo => none
  | .flashWrite _ _ _ => none
  | .flashErase => none
  | .jtagBypass => none
  | .idcode => none
  | .samplePreload _ => none
  | .extest _ => none
  | .clampInstruction => none
  | .highz => none
  | .dpLinkLoss _ => none
  | .i2sBlockDrain _ => none
  | .adaptiveVoltageScaling _ => none
  | .coreParityFault _ _ => none
  | .memorySpaceEnableChange _ _ => none

end Sys2Proof
end

