-- ==== Sys2Proof/Laws/PerInstr.lean ====
section
/-! SUPPORT. Per command: a well-formed command that names an instance names one of the 512 (R1). -/
namespace Sys2Proof.Laws.Wf

/-- A well-formed command names an instance of the device, if it names one. -/
def Statement (i : Instr) : Prop := i.wf = true → ∀ n, i.instance? = some n → n < 512

theorem names_none {i : Instr} (h : i.instance? = none) : Statement i := fun _ n e => by rw [h] at e; exact nomatch e
theorem names_some {i : Instr} {n : Nat} (h : i.instance? = some n) (k : i.wf = true → n < 512) : Statement i :=
  fun w m e => by rw [h] at e; cases e; exact k w
theorem only {n : Nat} (h : wfInst n = true) : n < 512 := of_decide_eq_true h
theorem first {n : Nat} {b : Bool} (h : (wfInst n && b) = true) : n < 512 := only (Bool.and_eq_true_iff.mp h).1
theorem thread {n t : Nat} (h : wfThread n t = true) : n < 512 := first h
theorem firstThread {n t : Nat} {b : Bool} (h : (wfThread n t && b) = true) : n < 512 := thread (Bool.and_eq_true_iff.mp h).1

theorem registerWrite (p : Path) (a : RegAddr) (width : Nat) (v : Nat) : Statement (.registerWrite p a width v) := names_none rfl
theorem readClear (p : Path) (a : RegAddr) (width : Nat) : Statement (.readClear p a width) := names_none rfl
theorem coldPowerUp (straps : Nat) : Statement (.coldPowerUp straps) := names_none rfl
theorem powerDown : Statement (.powerDown) := names_none rfl
theorem perstAssert : Statement (.perstAssert) := names_none rfl
theorem perstDeassert (straps : Nat) : Statement (.perstDeassert straps) := names_none rfl
theorem hotReset (cause : ResetCause) : Statement (.hotReset cause) := names_none rfl
theorem boot (r : BootRun) : Statement (.boot r) := names_none rfl
theorem loadHost (image : Option (List Byte)) (ms : Nat) (avs : Nat) (cut : Option Bool) : Statement (.loadHost image ms avs cut) := names_none rfl
theorem loadSlot (ms : Nat) (avs : Nat) (cut : Option Bool) : Statement (.loadSlot ms avs cut) := names_none rfl
theorem writeSlot (image : Option (List Byte)) (ms : Nat) : Statement (.writeSlot image ms) := names_none rfl
theorem sealSlot (ms : Nat) (cut : Option Bool) : Statement (.sealSlot ms cut) := names_none rfl
theorem eraseSlot (ms : Nat) : Statement (.eraseSlot ms) := names_none rfl
theorem fuseArm (v : Word) : Statement (.fuseArm v) := names_none rfl
theorem reservedOpcode (n : Nat) (t : Nat) (w : Word) : Statement (.reservedOpcode n t w) := names_some rfl fun h => thread h
theorem sel (n : Nat) (t : Nat) (f : FmtSel) : Statement (.sel n t f) := names_some rfl fun h => firstThread h
theorem lui (n : Nat) (t : Nat) (f : FmtU) : Statement (.lui n t f) := names_some rfl fun h => firstThread h
theorem addi (n : Nat) (t : Nat) (f : FmtI) : Statement (.addi n t f) := names_some rfl fun h => firstThread h
theorem andi (n : Nat) (t : Nat) (f : FmtI) : Statement (.andi n t f) := names_some rfl fun h => firstThread h
theorem ori (n : Nat) (t : Nat) (f : FmtI) : Statement (.ori n t f) := names_some rfl fun h => firstThread h
theorem xori (n : Nat) (t : Nat) (f : FmtI) : Statement (.xori n t f) := names_some rfl fun h => firstThread h
theorem cmpeqi (n : Nat) (t : Nat) (f : FmtI) : Statement (.cmpeqi n t f) := names_some rfl fun h => firstThread h
theorem cmpnei (n : Nat) (t : Nat) (f : FmtI) : Statement (.cmpnei n t f) := names_some rfl fun h => firstThread h
theorem cmplti (n : Nat) (t : Nat) (f : FmtI) : Statement (.cmplti n t f) := names_some rfl fun h => firstThread h
theorem cmpltui (n : Nat) (t : Nat) (f : FmtI) : Statement (.cmpltui n t f) := names_some rfl fun h => firstThread h
theorem shli (n : Nat) (t : Nat) (f : FmtI) : Statement (.shli n t f) := names_some rfl fun h => firstThread h
theorem shri (n : Nat) (t : Nat) (f : FmtI) : Statement (.shri n t f) := names_some rfl fun h => firstThread h
theorem sari (n : Nat) (t : Nat) (f : FmtI) : Statement (.sari n t f) := names_some rfl fun h => firstThread h
theorem muli (n : Nat) (t : Nat) (f : FmtI) : Statement (.muli n t f) := names_some rfl fun h => firstThread h
theorem lb (n : Nat) (t : Nat) (f : FmtM) : Statement (.lb n t f) := names_some rfl fun h => firstThread h
theorem lbu (n : Nat) (t : Nat) (f : FmtM) : Statement (.lbu n t f) := names_some rfl fun h => firstThread h
theorem lh (n : Nat) (t : Nat) (f : FmtM) : Statement (.lh n t f) := names_some rfl fun h => firstThread h
theorem lhu (n : Nat) (t : Nat) (f : FmtM) : Statement (.lhu n t f) := names_some rfl fun h => firstThread h
theorem lw (n : Nat) (t : Nat) (f : FmtM) : Statement (.lw n t f) := names_some rfl fun h => firstThread h
theorem ld (n : Nat) (t : Nat) (f : FmtM) : Statement (.ld n t f) := names_some rfl fun h => firstThread h
theorem aadd (n : Nat) (t : Nat) (f : FmtM) : Statement (.aadd n t f) := names_some rfl fun h => firstThread h
theorem aswp (n : Nat) (t : Nat) (f : FmtM) : Statement (.aswp n t f) := names_some rfl fun h => firstThread h
theorem sb (n : Nat) (t : Nat) (f : FmtM) : Statement (.sb n t f) := names_some rfl fun h => firstThread h
theorem sh (n : Nat) (t : Nat) (f : FmtM) : Statement (.sh n t f) := names_some rfl fun h => firstThread h
theorem sw (n : Nat) (t : Nat) (f : FmtM) : Statement (.sw n t f) := names_some rfl fun h => firstThread h
theorem sd (n : Nat) (t : Nat) (f : FmtM) : Statement (.sd n t f) := names_some rfl fun h => firstThread h
theorem bz (n : Nat) (t : Nat) (f : FmtB) : Statement (.bz n t f) := names_some rfl fun h => firstThread h
theorem bnz (n : Nat) (t : Nat) (f : FmtB) : Statement (.bnz n t f) := names_some rfl fun h => firstThread h
theorem dbnz (n : Nat) (t : Nat) (f : FmtB) : Statement (.dbnz n t f) := names_some rfl fun h => firstThread h
theorem j (n : Nat) (t : Nat) (f : FmtJ) : Statement (.j n t f) := names_some rfl fun h => firstThread h
theorem call (n : Nat) (t : Nat) (f : FmtJ) : Statement (.call n t f) := names_some rfl fun h => firstThread h
theorem jalr (n : Nat) (t : Nat) (f : FmtI) : Statement (.jalr n t f) := names_some rfl fun h => firstThread h
theorem add (n : Nat) (t : Nat) (f : FmtR) : Statement (.add n t f) := names_some rfl fun h => firstThread h
theorem sub (n : Nat) (t : Nat) (f : FmtR) : Statement (.sub n t f) := names_some rfl fun h => firstThread h
theorem and (n : Nat) (t : Nat) (f : FmtR) : Statement (.and n t f) := names_some rfl fun h => firstThread h
theorem or (n : Nat) (t : Nat) (f : FmtR) : Statement (.or n t f) := names_some rfl fun h => firstThread h
theorem xor (n : Nat) (t : Nat) (f : FmtR) : Statement (.xor n t f) := names_some rfl fun h => firstThread h
theorem andn (n : Nat) (t : Nat) (f : FmtR) : Statement (.andn n t f) := names_some rfl fun h => firstThread h
theorem shl (n : Nat) (t : Nat) (f : FmtR) : Statement (.shl n t f) := names_some rfl fun h => firstThread h
theorem shr (n : Nat) (t : Nat) (f : FmtR) : Statement (.shr n t f) := names_some rfl fun h => firstThread h
theorem sar (n : Nat) (t : Nat) (f : FmtR) : Statement (.sar n t f) := names_some rfl fun h => firstThread h
theorem rol (n : Nat) (t : Nat) (f : FmtR) : Statement (.rol n t f) := names_some rfl fun h => firstThread h
theorem ror (n : Nat) (t : Nat) (f : FmtR) : Statement (.ror n t f) := names_some rfl fun h => firstThread h
theorem cmpeq (n : Nat) (t : Nat) (f : FmtR) : Statement (.cmpeq n t f) := names_some rfl fun h => firstThread h
theorem cmpne (n : Nat) (t : Nat) (f : FmtR) : Statement (.cmpne n t f) := names_some rfl fun h => firstThread h
theorem cmplt (n : Nat) (t : Nat) (f : FmtR) : Statement (.cmplt n t f) := names_some rfl fun h => firstThread h
theorem cmpltu (n : Nat) (t : Nat) (f : FmtR) : Statement (.cmpltu n t f) := names_some rfl fun h => firstThread h
theorem cmple (n : Nat) (t : Nat) (f : FmtR) : Statement (.cmple n t f) := names_some rfl fun h => firstThread h
theorem cmpleu (n : Nat) (t : Nat) (f : FmtR) : Statement (.cmpleu n t f) := names_some rfl fun h => firstThread h
theorem min (n : Nat) (t : Nat) (f : FmtR) : Statement (.min n t f) := names_some rfl fun h => firstThread h
theorem max (n : Nat) (t : Nat) (f : FmtR) : Statement (.max n t f) := names_some rfl fun h => firstThread h
theorem minu (n : Nat) (t : Nat) (f : FmtR) : Statement (.minu n t f) := names_some rfl fun h => firstThread h
theorem maxu (n : Nat) (t : Nat) (f : FmtR) : Statement (.maxu n t f) := names_some rfl fun h => firstThread h
theorem mul (n : Nat) (t : Nat) (f : FmtR) : Statement (.mul n t f) := names_some rfl fun h => firstThread h
theorem mulh (n : Nat) (t : Nat) (f : FmtR) : Statement (.mulh n t f) := names_some rfl fun h => firstThread h
theorem mulhu (n : Nat) (t : Nat) (f : FmtR) : Statement (.mulhu n t f) := names_some rfl fun h => firstThread h
theorem divs (n : Nat) (t : Nat) (f : FmtR) : Statement (.divs n t f) := names_some rfl fun h => firstThread h
theorem divu (n : Nat) (t : Nat) (f : FmtR) : Statement (.divu n t f) := names_some rfl fun h => firstThread h
theorem carry (n : Nat) (t : Nat) (f : FmtR) : Statement (.carry n t f) := names_some rfl fun h => firstThread h
theorem borrow (n : Nat) (t : Nat) (f : FmtR) : Statement (.borrow n t f) := names_some rfl fun h => firstThread h
theorem adds (n : Nat) (t : Nat) (f : FmtR) : Statement (.adds n t f) := names_some rfl fun h => firstThread h
theorem subs (n : Nat) (t : Nat) (f : FmtR) : Statement (.subs n t f) := names_some rfl fun h => firstThread h
theorem neg (n : Nat) (t : Nat) (f : FmtR) : Statement (.neg n t f) := names_some rfl fun h => firstThread h
theorem not (n : Nat) (t : Nat) (f : FmtR) : Statement (.not n t f) := names_some rfl fun h => firstThread h
theorem abs (n : Nat) (t : Nat) (f : FmtR) : Statement (.abs n t f) := names_some rfl fun h => firstThread h
theorem clz (n : Nat) (t : Nat) (f : FmtR) : Statement (.clz n t f) := names_some rfl fun h => firstThread h
theorem ctz (n : Nat) (t : Nat) (f : FmtR) : Statement (.ctz n t f) := names_some rfl fun h => firstThread h
theorem popc (n : Nat) (t : Nat) (f : FmtR) : Statement (.popc n t f) := names_some rfl fun h => firstThread h
theorem par (n : Nat) (t : Nat) (f : FmtR) : Statement (.par n t f) := names_some rfl fun h => firstThread h
theorem brev (n : Nat) (t : Nat) (f : FmtR) : Statement (.brev n t f) := names_some rfl fun h => firstThread h
theorem brev8 (n : Nat) (t : Nat) (f : FmtR) : Statement (.brev8 n t f) := names_some rfl fun h => firstThread h
theorem bswap (n : Nat) (t : Nat) (f : FmtR) : Statement (.bswap n t f) := names_some rfl fun h => firstThread h
theorem sextb (n : Nat) (t : Nat) (f : FmtR) : Statement (.sextb n t f) := names_some rfl fun h => firstThread h
theorem sexth (n : Nat) (t : Nat) (f : FmtR) : Statement (.sexth n t f) := names_some rfl fun h => firstThread h
theorem zexth (n : Nat) (t : Nat) (f : FmtR) : Statement (.zexth n t f) := names_some rfl fun h => firstThread h
theorem crc32b (n : Nat) (t : Nat) (f : FmtR) : Statement (.crc32b n t f) := names_some rfl fun h => firstThread h
theorem crc32w (n : Nat) (t : Nat) (f : FmtR) : Statement (.crc32w n t f) := names_some rfl fun h => firstThread h
theorem crc16b (n : Nat) (t : Nat) (f : FmtR) : Statement (.crc16b n t f) := names_some rfl fun h => firstThread h
theorem nop (n : Nat) (t : Nat) (f : FmtY) : Statement (.nop n t f) := names_some rfl fun h => firstThread h
theorem wait (n : Nat) (t : Nat) (f : FmtY) : Statement (.wait n t f) := names_some rfl fun h => firstThread h
theorem iret (n : Nat) (t : Nat) (f : FmtY) : Statement (.iret n t f) := names_some rfl fun h => firstThread h
theorem trap (n : Nat) (t : Nat) (f : FmtY) : Statement (.trap n t f) := names_some rfl fun h => firstThread h
theorem mfsr (n : Nat) (t : Nat) (f : FmtY) : Statement (.mfsr n t f) := names_some rfl fun h => firstThread h
theorem mtsr (n : Nat) (t : Nat) (f : FmtY) : Statement (.mtsr n t f) := names_some rfl fun h => firstThread h
theorem stop (n : Nat) (t : Nat) (f : FmtY) : Statement (.stop n t f) := names_some rfl fun h => firstThread h
theorem pair (n : Nat) (t : Nat) (f : FmtP) : Statement (.pair n t f) := names_some rfl fun h => firstThread h
theorem threadRunWrite (p : Path) (n : Nat) (v : Word) : Statement (.threadRunWrite p n v) := names_some rfl fun h => first h
theorem instTRegisterWrite (p : Path) (n : Nat) (t : Nat) (off : Nat) (v : Word) : Statement (.instTRegisterWrite p n t off v) := names_some rfl fun h => firstThread h
theorem interruptEntry (n : Nat) (t : Nat) : Statement (.interruptEntry n t) := names_some rfl fun h => thread h
theorem waitWake (n : Nat) (t : Nat) : Statement (.waitWake n t) := names_some rfl fun h => thread h
theorem icuClaim (n : Nat) (t : Nat) : Statement (.icuClaim n t) := names_some rfl fun h => thread h
theorem icuEoi (p : Path) (n : Nat) (v : Word) : Statement (.icuEoi p n v) := names_some rfl fun h => first h
theorem icuSrcCfgWrite (p : Path) (n : Nat) (i : Nat) (v : Word) : Statement (.icuSrcCfgWrite p n i v) := names_some rfl fun h => first h
theorem timCtrlWrite (p : Path) (n : Nat) (i : Nat) (v : Word) : Statement (.timCtrlWrite p n i v) := names_some rfl fun h => first h
theorem timerTick (n : Nat) (i : Nat) : Statement (.timerTick n i) := names_some rfl fun h => first h
theorem timCaptRead (p : Path) (n : Nat) (i : Nat) : Statement (.timCaptRead p n i) := names_some rfl fun h => first h
theorem beamTimerFire (n : Nat) (i : Nat) : Statement (.beamTimerFire n i) := names_some rfl fun h => first h
theorem eventPulse (n : Nat) (i : Nat) : Statement (.eventPulse n i) := names_some rfl fun h => first h
theorem evtSw (p : Path) (n : Nat) (v : Word) : Statement (.evtSw p n v) := names_some rfl fun h => first h
theorem threeFlopPulseAction (n : Nat) (i : Nat) : Statement (.threeFlopPulseAction n i) := names_some rfl fun h => first h
theorem cdcInstModeWrite (n : Nat) (v : Word) : Statement (.cdcInstModeWrite n v) := names_some rfl fun h => only h
theorem vidVcLoRead (p : Path) (n : Nat) : Statement (.vidVcLoRead p n) := names_some rfl fun h => first h
theorem vidTimingWrite (p : Path) (n : Nat) (v : Word) : Statement (.vidTimingWrite p n v) := names_some rfl fun h => first h
theorem hostWriteLand (n : Nat) : Statement (.hostWriteLand n) := names_some rfl fun h => only h
theorem frameRelease (n : Nat) : Statement (.frameRelease n) := names_some rfl fun h => only h
theorem pacingDeadlineExpire (n : Nat) : Statement (.pacingDeadlineExpire n) := names_some rfl fun h => only h
theorem vidPaceReanchor (n : Nat) (v : Word) : Statement (.vidPaceReanchor n v) := names_some rfl fun h => only h
theorem lineStatePoint (n : Nat) : Statement (.lineStatePoint n) := names_some rfl fun h => only h
theorem frameLatch (n : Nat) : Statement (.frameLatch n) := names_some rfl fun h => only h
theorem cmpCommit (p : Path) (n : Nat) (v : Word) : Statement (.cmpCommit p n v) := names_some rfl fun h => first h
theorem lineDispatch (n : Nat) (k : Nat) : Statement (.lineDispatch n k) := names_some rfl fun h => first h
theorem lineRenderDone (k : Nat) : Statement (.lineRenderDone k) := names_none rfl
theorem journalRetire (n : Nat) : Statement (.journalRetire n) := names_some rfl fun h => only h
theorem engineBeatLand (n : Nat) : Statement (.engineBeatLand n) := names_some rfl fun h => only h
theorem rendererRotation (s : Nat) (pass : Bool) : Statement (.rendererRotation s pass) := names_none rfl
theorem rendererTestDone (s : Nat) (pass : Bool) : Statement (.rendererTestDone s pass) := names_none rfl
theorem blitEngineTest (k : Nat) (pass : Bool) : Statement (.blitEngineTest k pass) := names_none rfl
theorem coreTest (k : Nat) (pass : Bool) : Statement (.coreTest k pass) := names_none rfl
theorem bltSubmit (p : Path) (n : Nat) (v : Word) : Statement (.bltSubmit p n v) := names_some rfl fun h => first h
theorem blitJobCreditWait (n : Nat) : Statement (.blitJobCreditWait n) := names_some rfl fun h => only h
theorem blitJobTake (k : Nat) : Statement (.blitJobTake k) := names_none rfl
theorem blitJobStart (n : Nat) : Statement (.blitJobStart n) := names_some rfl fun h => only h
theorem blitBeat (n : Nat) : Statement (.blitBeat n) := names_some rfl fun h => only h
theorem blitSetAside (k : Nat) : Statement (.blitSetAside k) := names_none rfl
theorem blitResume (k : Nat) : Statement (.blitResume k) := names_none rfl
theorem dmaStart (p : Path) (n : Nat) (i : Nat) (v : Word) : Statement (.dmaStart p n i v) := names_some rfl fun h => first h
theorem dmaCheck (n : Nat) (i : Nat) : Statement (.dmaCheck n i) := names_some rfl fun h => first h
theorem dmaBeat (n : Nat) : Statement (.dmaBeat n) := names_some rfl fun h => only h
theorem audioSample (n : Nat) : Statement (.audioSample n) := names_some rfl fun h => only h
theorem audRestart (p : Path) (n : Nat) (i : Nat) (v : Word) : Statement (.audRestart p n i v) := names_some rfl fun h => first h
theorem audSampleLoRead (p : Path) (n : Nat) : Statement (.audSampleLoRead p n) := names_some rfl fun h => first h
theorem streamSlotClaim (n : Nat) : Statement (.streamSlotClaim n) := names_some rfl fun h => only h
theorem compressRow (s : Nat) : Statement (.compressRow s) := names_none rfl
theorem packetComplete (n : Nat) : Statement (.packetComplete n) := names_some rfl fun h => only h
theorem packetMove (n : Nat) : Statement (.packetMove n) := names_some rfl fun h => only h
theorem whistleWatchdogExpire (n : Nat) : Statement (.whistleWatchdogExpire n) := names_some rfl fun h => only h
theorem bypassBlockMove (n : Nat) : Statement (.bypassBlockMove n) := names_some rfl fun h => only h
theorem monitorFrameStart (k : Nat) : Statement (.monitorFrameStart k) := names_none rfl
theorem monitorSlotRelease (k : Nat) : Statement (.monitorSlotRelease k) := names_none rfl
theorem dpLinkTrain (k : Nat) (lanes : Nat) (rate : Nat) : Statement (.dpLinkTrain k lanes rate) := names_none rfl
theorem hpdEvent (k : Nat) (e : HpdKind) : Statement (.hpdEvent k e) := names_none rfl
theorem cmpBellCommit (n : Nat) (v : Word) : Statement (.cmpBellCommit n v) := names_some rfl fun h => only h
theorem bellBankSwitch (n : Nat) : Statement (.bellBankSwitch n) := names_some rfl fun h => only h
theorem bellSurfaceWrite (off : Nat) (width : Nat) (v : Nat) : Statement (.bellSurfaceWrite off width v) := names_none rfl
theorem checkpoint (n : Nat) : Statement (.checkpoint n) := names_some rfl fun h => only h
theorem undoCopy (n : Nat) (region : Nat) (block : Nat) : Statement (.undoCopy n region block) := names_some rfl fun h => first h
theorem auditRun (n : Nat) (slot : Nat) (again : Nat) (r : AuditOutcome) : Statement (.auditRun n slot again r) := names_some rfl fun h => first h
theorem hold (n : Nat) : Statement (.hold n) := names_some rfl fun h => only h
theorem holdNow (n : Nat) : Statement (.holdNow n) := names_some rfl fun h => only h
theorem play (n : Nat) (shelf : Option (List Byte)) : Statement (.play n shelf) := names_some rfl fun h => only h
theorem bench (n : Nat) (shelf : Option (List Byte)) : Statement (.bench n shelf) := names_some rfl fun h => only h
theorem park (n : Nat) (shelf : Option (List Byte)) : Statement (.park n shelf) := names_some rfl fun h => only h
theorem shelve (n : Nat) : Statement (.shelve n) := names_some rfl fun h => only h
theorem rewind (n : Nat) : Statement (.rewind n) := names_some rfl fun h => only h
theorem instReset (n : Nat) : Statement (.instReset n) := names_some rfl fun h => only h
theorem adopt (n : Nat) : Statement (.adopt n) := names_some rfl fun h => only h
theorem rungCommandDequeue (n : Nat) : Statement (.rungCommandDequeue n) := names_some rfl fun h => only h
theorem cmdEntry (n : Nat) (entry : List Byte) : Statement (.cmdEntry n entry) := names_some rfl fun h => first h
theorem inputArrive (n : Nat) (entry : List Byte) : Statement (.inputArrive n entry) := names_some rfl fun h => first h
theorem extWrite : Statement (.extWrite) := names_none rfl
theorem extRead : Statement (.extRead) := names_none rfl
theorem extFlush : Statement (.extFlush) := names_none rfl
theorem extDrop : Statement (.extDrop) := names_none rfl
theorem extFetch (leaves : List (Option (List Byte))) : Statement (.extFetch leaves) := names_none rfl
theorem extSpanWrite (p : Path) (n : Nat) (count : Bool) (v : Word) : Statement (.extSpanWrite p n count v) := names_some rfl fun h => only h
theorem leafMove (extent : Nat) (leaf : Nat) (content : Option (List Byte)) : Statement (.leafMove extent leaf content) := names_none rfl
theorem moverCopy (r : Nat) (desc : List Byte) (data : List Byte) : Statement (.moverCopy r desc data) := names_none rfl
theorem moverFill (r : Nat) (desc : List Byte) : Statement (.moverFill r desc) := names_none rfl
theorem moverDescriptorComplete (r : Nat) : Statement (.moverDescriptorComplete r) := names_none rfl
theorem hstMvTail (r : Nat) (v : Word) : Statement (.hstMvTail r v) := names_none rfl
theorem moverRingDisable (r : Nat) : Statement (.moverRingDisable r) := names_none rfl
theorem moverRingResume (r : Nat) : Statement (.moverRingResume r) := names_none rfl
theorem hstVfRingEnable (p : Path) (n : Nat) (r : Nat) (v : Word) : Statement (.hstVfRingEnable p n r v) := names_some rfl fun h => first h
theorem hstVfDb (p : Path) (n : Nat) (r : Nat) (v : Word) : Statement (.hstVfDb p n r v) := names_some rfl fun h => first h
theorem irqDelayExpire (n : Nat) : Statement (.irqDelayExpire n) := names_some rfl fun h => only h
theorem ringReadFail (n : Nat) (r : Nat) : Statement (.ringReadFail n r) := names_some rfl fun h => first h
theorem flr (n : Nat) : Statement (.flr n) := names_some rfl fun h => only h
theorem vfEnableClear (count : Nat) : Statement (.vfEnableClear count) := names_none rfl
theorem busMasterEnableChange (fn : Nat) (on : Bool) : Statement (.busMasterEnableChange fn on) := names_none rfl
theorem unsupportedRequest (p : Path) (a : RegAddr) : Statement (.unsupportedRequest p a) := names_none rfl
theorem poisonedWrite (p : Path) (a : RegAddr) : Statement (.poisonedWrite p a) := names_none rfl
theorem linkTrain (lanes : Nat) (rate : Nat) (flit : Bool) : Statement (.linkTrain lanes rate flit) := names_none rfl
theorem channelWatchdogExpire (k : Nat) : Statement (.channelWatchdogExpire k) := names_none rfl
theorem powerRun : Statement (.powerRun) := names_none rfl
theorem retain : Statement (.retain) := names_none rfl
theorem doze : Statement (.doze) := names_none rfl
theorem idleEnter : Statement (.idleEnter) := names_none rfl
theorem idleExit : Statement (.idleExit) := names_none rfl
theorem rampStart : Statement (.rampStart) := names_none rfl
theorem rampEnd (d : Nat) : Statement (.rampEnd d) := names_none rfl
theorem drainComplete (d : Nat) : Statement (.drainComplete d) := names_none rfl
theorem drainForced (d : Nat) : Statement (.drainForced d) := names_none rfl
theorem linkSleepEnter : Statement (.linkSleepEnter) := names_none rfl
theorem linkSleepExit : Statement (.linkSleepExit) := names_none rfl
theorem scrubStep (upsets : List (WordAt × Bool)) : Statement (.scrubStep upsets) := names_none rfl
theorem poolSelfTest (g : Nat) (pass : Bool) : Statement (.poolSelfTest g pass) := names_none rfl
theorem hbmPatrolScrub : Statement (.hbmPatrolScrub) := names_none rfl
theorem injectCe : Statement (.injectCe) := names_none rfl
theorem injectUe : Statement (.injectUe) := names_none rfl
theorem lockstepMismatch (k : Nat) : Statement (.lockstepMismatch k) := names_none rfl
theorem mgtHeartbeat : Statement (.mgtHeartbeat) := names_none rfl
theorem mgtWatchdog : Statement (.mgtWatchdog) := names_none rfl
theorem clockMonitorWindow (c : ClockName) (count : Nat) (lost : Bool) : Statement (.clockMonitorWindow c count lost) := names_none rfl
theorem voltageSample (rail : Rail) (uv : Nat) : Statement (.voltageSample rail uv) := names_none rfl
theorem tempCrossing (level : TempLevel) : Statement (.tempCrossing level) := names_none rfl
theorem thermtrip : Statement (.thermtrip) := names_none rfl
theorem tamperAssert (i : Nat) : Statement (.tamperAssert i) := names_none rfl
theorem tamperWipeDone : Statement (.tamperWipeDone) := names_none rfl
theorem hbmLinkLoss : Statement (.hbmLinkLoss) := names_none rfl
theorem safForce (v : Word) : Statement (.safForce v) := names_none rfl
theorem safTestReq (v : Word) : Statement (.safTestReq v) := names_none rfl
theorem testStart (pass : Bool) : Statement (.testStart pass) := names_none rfl
theorem testDefer : Statement (.testDefer) := names_none rfl
theorem testDone (pass : Bool) : Statement (.testDone pass) := names_none rfl
theorem gpioCfgWrite (a : Agent) (p : Nat) (v : Word) : Statement (.gpioCfgWrite a p v) := names_none rfl
theorem gpioSwitchSettle (p : Nat) : Statement (.gpioSwitchSettle p) := names_none rfl
theorem gpioTgl (a : Agent) (w : Nat) (v : Word) : Statement (.gpioTgl a w v) := names_none rfl
theorem gpioLockKey (a : Agent) (v : Word) : Statement (.gpioLockKey a v) := names_none rfl
theorem gpioLockedWrite (a : Agent) (w : Nat) (v : Word) : Statement (.gpioLockedWrite a w v) := names_none rfl
theorem gpioEdge (p : Nat) (level : Bool) (closed : Nat) : Statement (.gpioEdge p level closed) := names_none rfl
theorem fwInfo : Statement (.fwInfo) := names_none rfl
theorem flashWrite (copy : Option (List Byte)) (again : Option (List Byte)) (readBack : Bool) : Statement (.flashWrite copy again readBack) := names_none rfl
theorem flashErase : Statement (.flashErase) := names_none rfl
theorem jtagBypass : Statement (.jtagBypass) := names_none rfl
theorem idcode : Statement (.idcode) := names_none rfl
theorem samplePreload (v : Nat) : Statement (.samplePreload v) := names_none rfl
theorem extest (v : Nat) : Statement (.extest v) := names_none rfl
theorem clampInstruction : Statement (.clampInstruction) := names_none rfl
theorem highz : Statement (.highz) := names_none rfl
theorem dpLinkLoss (k : Nat) : Statement (.dpLinkLoss k) := names_none rfl
theorem i2sBlockDrain (k : Nat) : Statement (.i2sBlockDrain k) := names_none rfl
theorem adaptiveVoltageScaling (mv : Nat) : Statement (.adaptiveVoltageScaling mv) := names_none rfl
theorem coreParityFault (c p : Nat) : Statement (.coreParityFault c p) := names_none rfl
theorem memorySpaceEnableChange (fn : Nat) (on : Bool) : Statement (.memorySpaceEnableChange fn on) := names_none rfl

end Sys2Proof.Laws.Wf
end

