-- ==== Sys2Proof/Machine/Balls.lean ====
section
/-! DEFINITION. The states of the signal balls by the phase of power and reset (18_pins_boot.md, R535, R542). -/
namespace Sys2Proof.Machine

/-- The signal balls, as the rows of R542 group them: `inputs` are PERST#, THERMTRIP_N, TAMPER and the straps, `pmbus` PMB_SCL, PMB_SDA
and PMB_ALERT#, `i2s` the four balls of an output, `spi` SPI_CLK and SPI_IO, and `jtagIn` TCK, TMS and TDI. -/
inductive Ball where
  | pcie | inputs | wake | faultN | pmbus | clkreq
  | dpMain (k : Nat) | auxP (k : Nat) | auxN (k : Nat) | hpd (k : Nat) | i2s (k : Nat) | gpio (p : Nat)
  | spiCs | spi | jtagIn | trst | tdo | health
  deriving DecidableEq, Repr

/-- The state of a ball (R542): `weakUp` and `weakDown` are a high impedance or an input with a weak pull, `biasUp` and `biasDown` the
bias of a source by 100 kOhm, `idle` an idle lane, and `unit` what the unit of the ball drives or releases. -/
inductive BallState where
  | hiZ | input | released | low | high | weakUp | weakDown | biasUp | biasDown | idle | training | unit
  deriving DecidableEq, Repr

/-- The phases of R542; the last one follows boot. -/
inductive Phase where
  | unpowered | inReset | booting | running
  deriving DecidableEq, Repr

/-- The phase of the device. -/
def State.phase (s : State) : Phase :=
  if !s.boot.powered then .unpowered else if s.boot.perst then .inReset else if !s.boot.ready then .booting else .running

/-- What a GPIO pin shows: the level that it drives, or its pull (R542, R548, R553). -/
def State.gpioBall (s : State) (p : Nat) : BallState :=
  match s.pinDrive p with
  | some b => if b then .high else .low
  | none => match wbits (s.pinCfg p) 13 12 with
    | 1 => .weakDown
    | 2 => .weakUp
    | _ => .hiZ

/-- The state of a ball (R507, R535, R542; after boot by the chapter of its unit). CLKREQ# after boot is that of L1 PM Substates:
released in L1.2, else low (PRESUMED, log entry 71). -/
def State.ball (s : State) (b : Ball) : BallState :=
  match b, s.phase with
  | .pcie, .unpowered => .hiZ
  | .pcie, .inReset => .idle
  | .pcie, .booting => .training
  | .pcie, .running => if !s.host.linkUp then .training else if s.pwr = 4 then .idle else .unit
  | .inputs, _ => .input
  | .wake, _ => if s.host.wake then .low else .released
  | .faultN, .unpowered | .faultN, .inReset => .released
  | .faultN, _ => if s.safety.faultN then .low else .released
  | .pmbus, .running => .unit
  | .pmbus, _ => .released
  | .clkreq, .unpowered => .released
  | .clkreq, .running => if s.pwr = 4 then .released else .low
  | .clkreq, _ => .low
  | .dpMain _, .unpowered => .hiZ
  | .dpMain k, .running => if s.dpoOn k && s.dpoUp k then .unit else .idle
  | .dpMain _, _ => .idle
  | .auxP _, .unpowered | .auxN _, .unpowered => .hiZ
  | .auxP _, _ => .biasDown
  | .auxN _, _ => .biasUp
  | .hpd _, .unpowered => .input
  | .hpd _, _ => .weakDown
  | .i2s _, .unpowered => .hiZ
  | .i2s _, .inReset => .weakDown
  | .i2s k, _ => match s.i2sDrive k with
    | .runs _ => .unit
    | _ => .low
  | .gpio _, .unpowered => .hiZ
  | .gpio p, _ => s.gpioBall p
  | .spiCs, .unpowered | .spi, .unpowered => .hiZ
  | .spiCs, .inReset => .weakUp
  | .spi, .inReset => .weakDown
  | .spiCs, _ | .spi, _ => .unit
  | .jtagIn, .unpowered | .trst, .unpowered => .input
  | .jtagIn, _ => .weakUp
  | .trst, _ => .weakDown
  | .tdo, .unpowered | .tdo, .inReset => .hiZ
  | .tdo, _ => .unit
  | .health, .unpowered | .health, .inReset => .hiZ
  | .health, .booting => .low
  | .health, .running => if s.healthy then .high else .low

end Sys2Proof.Machine
end

