-- ==== Sys2Proof/Tests/Slice0.lean ====
section
/-! SUPPORT. Tests of the model and a witness for each statement with hypotheses. First ill-formed commands, each refused by a check of WellFormed; then words written out from the manual's encodings,
the manual's worked examples; and for each statement with hypotheses a witness: a state and operands that meet them. -/
namespace Sys2Proof.Tests
open Sys2Proof Sys2Proof.Machine
set_option Elab.async false

/-! Helpers. -/

/-- A state without detected causes, by its lists. -/
theorem quiet_of {s : State} (h : (s.safety.found.isEmpty && s.insts.all fun e => e.2.found.isEmpty) = true) : s.noCause := by
  simp only [Bool.and_eq_true, List.isEmpty_iff, List.all_eq_true] at h
  refine ⟨h.1, fun n => ?_⟩
  unfold State.inst
  generalize s.insts = l at h
  have hl := h.2
  clear h
  induction l with
  | nil => rfl
  | cons e r ih =>
    obtain ⟨a, x⟩ := e
    unfold Map.get
    split
    · exact hl (a, x) (by simp)
    · exact ih fun y hy => hl y (by simp [hy])

/-- No uncorrectable word in any memory, by its lists. -/
def tidy (s : State) : Bool :=
  s.mem.poolUe.isEmpty && s.mem.hbmUe.isEmpty && s.mem.extUe.isEmpty && s.vault.ue.isEmpty && s.mem.leaves.all fun x => x.ue.isEmpty

theorem clean_of {s : State} (h : tidy s = true) : s.clean := by
  simp only [tidy, Bool.and_eq_true, List.isEmpty_iff, List.all_eq_true] at h
  obtain ⟨⟨⟨⟨hp, hh⟩, he⟩, hv⟩, hl⟩ := h
  rintro (_ | _ | _ | _ | ⟨e, l⟩)
  · exact hp
  · exact hh
  · exact hv
  · exact he
  · show (match s.leaf? e l with | some x => (x.ce, x.ue) | none => ([], [])).2 = []
    cases hf : s.leaf? e l with
    | none => rfl
    | some x => exact hl x (List.mem_of_find?_eq_some hf)

/-- A thread that runs at stamp 100 with PC 0x40; g1 to g4 hold 7, 0xFFFFFFFD, 0x80 and 0xFFFFC. -/
def tThread : Thread :=
  { g := [(1, 7), (2, 0xFFFFFFFD), (3, 0x80), (4, 0xFFFFC)], pc := 0x40, run := true, pos := 100 }

/-- Instance state at stamp 100: one thread; SEG[0] is work RAM with every right, and SEG[1], SEG[2] and SEG[3] work RAM, VRAM and IO with R and W. -/
def tCore : Core :=
  { regs := [(0x108, 0x27), (0x114, 0xFFFFF), (0x124, 0xFFFF)], threads := [tThread, {}, {}, {}], mix := { next := 1 }, nextLine := 1 }

/-- Instance 0, admitted and Playing: class A, one slot, 1 MiB of work RAM at 0x1000_0000 and 4 granules of VRAM. -/
def tInst : Inst :=
  { adm := { state := 2, slots := 1, work := 1, vram := 4, workB := 0x10000000, strmB := 0x11000000 }
    core := tCore, rung := .playing, released := 1, vf := { enabled := true, mse := true, bme := true } }

/-- A device after boot with the link up, and instance 0. -/
def tDev (i : Inst) : State :=
  { State.reset with
    insts := [(0, i)], image := { mode := 0, id := 1, groups := [0xF], admitted := 1 }
    boot := { perst := false, ready := true }
    host := { mse := true, bme := true, linkUp := true, lanes := 8, rate := 6, flit := true } }

/-- The device with a word at the PC of thread 0. -/
def tWord (i : Inst) (w : Nat) : State := { tDev i with hbm := putBytes [] 0x10000040 (leBytes 4 w) }

/-- Thread 0 of an instance begins a word at stamp 100, as a test. -/
def idle (i : Inst) : Bool :=
  (match i.turnOf (.thread 0) with | some k => keyStamp k == 100 | none => false)
    && !(i.core.thread 0).waiting && i.core.eligible 0 == 0 && (i.core.thread 0).run && (i.core.thread 0).pos == 100 && i.found.isEmpty
/-- The fetch of thread 0 gives the word and leaves the state as it is, as a test. -/
def gives (s : State) (w : Nat) : Bool := match s.fetch 0 0 100 with | .ok x u => x == w && u == s | _ => false

/-- What the two tests say. -/
theorem begins_of {i : Inst} {w : Nat} (h : idle i = true) (hf : gives (tWord i w) w = true) :
    Begins (tWord i w) 0 0 100 w (tWord i w) := by
  simp only [idle, Bool.and_eq_true] at h
  obtain ⟨⟨⟨⟨⟨h1, h2⟩, h3⟩, h5⟩, h6⟩, h7⟩ := h
  refine ⟨?_, show (i.core.thread 0).waiting = false by simpa using h2, show i.core.eligible 0 = 0 by simpa using h3, ?_, h5,
    show (i.core.thread 0).pos = 100 by simpa using h6, quiet_of ?_, clean_of rfl⟩
  · show ∃ k, i.turnOf (.thread 0) = some k ∧ _
    cases hk : i.turnOf (.thread 0) with
    | none => rw [hk] at h1; cases h1
    | some k => rw [hk] at h1; exact ⟨k, rfl, by simpa using h1⟩
  · unfold gives at hf
    cases hx : (tWord i w).fetch 0 0 100 with
    | ok x u => rw [hx] at hf; simp only [Bool.and_eq_true, beq_iff_eq] at hf; rw [hf.1, hf.2]
    | trap a b => rw [hx] at hf; cases hf
    | stall a => rw [hx] at hf; cases hf
    | ue a => rw [hx] at hf; cases hf
  · show ([(0, i)].all fun e => e.2.found.isEmpty) = true
    simpa using h7

theorem idle_tInst : idle tInst = true := by decide +kernel
/-- The words that thread 0 of the instance begins. -/
theorem begins {w : Nat} (hf : gives (tWord tInst w) w = true) : Begins (tWord tInst w) 0 0 100 w (tWord tInst w) := begins_of idle_tInst hf

/-- An access that answers, as a test on what it answers. -/
theorem acc_of {α : Type} {x : AccOut α} {p : α → State → Bool}
    (h : (match x with | .ok a u => p a u | _ => false) = true) : ∃ a u, x = .ok a u ∧ p a u = true := by
  cases x with
  | ok a u => exact ⟨a, u, rfl, h⟩
  | trap a b => cases h
  | stall a => cases h
  | ue a => cases h

/-- StillAt as a test. -/
def still (s : State) (n t stamp : Nat) : Bool :=
  ((s.core n).thread t).run && ((s.core n).thread t).pos == stamp
    && (s.safety.found.isEmpty && s.insts.all fun e => e.2.found.isEmpty) && tidy s
theorem still_of {s : State} {n t stamp : Nat} (h : still s n t stamp = true) : StillAt s n t stamp := by
  simp only [still, Bool.and_eq_true] at h
  exact ⟨h.1.1.1, by simpa using h.1.1.2, quiet_of (by simpa using h.1.2), clean_of h.2⟩

/-- The thread with other registers, or another state of its own. -/
def tWith (f : Thread → Thread) (g : Core → Core) : Inst :=
  { tInst with core := g { tCore with threads := [f tThread, {}, {}, {}] } }

/-! Witnesses of the statements about words. -/

theorem witness_AluWords : Begins (tWord tInst (longWord 0x00 31 2 (31 * 1024 + 0x32))) 0 0 100 (longWord 0x00 31 2 (31 * 1024 + 0x32))
      (tWord tInst (longWord 0x00 31 2 (31 * 1024 + 0x32)))
    ∧ Begins (tWord tInst (longWord 0x00 0 31 0x2C)) 0 0 100 (longWord 0x00 0 31 0x2C) (tWord tInst (longWord 0x00 0 31 0x2C)) :=
  ⟨begins (by decide +kernel), begins (by decide +kernel)⟩

theorem witness_DivisionWords : Begins (tWord tInst (longWord 0x00 30 2 (1 * 1024 + 0x18))) 0 0 100 (longWord 0x00 30 2 (1 * 1024 + 0x18))
      (tWord tInst (longWord 0x00 30 2 (1 * 1024 + 0x18)))
    ∧ Begins (tWord tInst (longWord 0x00 0 2 0x19)) 0 0 100 (longWord 0x00 0 2 0x19) (tWord tInst (longWord 0x00 0 2 0x19)) :=
  ⟨begins (by decide +kernel), begins (by decide +kernel)⟩

theorem witness_ImmediateWords : Begins (tWord tInst (longWord 0x0F 31 1 0x7FFF)) 0 0 100 (longWord 0x0F 31 1 0x7FFF)
      (tWord tInst (longWord 0x0F 31 1 0x7FFF))
    ∧ Begins (tWord tInst (longWord 0x0E 31 1 255)) 0 0 100 (longWord 0x0E 31 1 255) (tWord tInst (longWord 0x0E 31 1 255))
    ∧ Begins (tWord tInst (0x03 * 2 ^ 25 + 31 * 2 ^ 20 + 0xFFFFF)) 0 0 100 (0x03 * 2 ^ 25 + 31 * 2 ^ 20 + 0xFFFFF)
      (tWord tInst (0x03 * 2 ^ 25 + 31 * 2 ^ 20 + 0xFFFFF))
    ∧ Begins (tWord tInst (longWord 0x01 31 31 (31 * 1024 + 31 * 32))) 0 0 100 (longWord 0x01 31 31 (31 * 1024 + 31 * 32))
      (tWord tInst (longWord 0x01 31 31 (31 * 1024 + 31 * 32))) :=
  ⟨begins (by decide +kernel), begins (by decide +kernel), begins (by decide +kernel), begins (by decide +kernel)⟩

/-- Of work RAM the last word, through SEG[1], and the highest offset below ga that imm12 names. -/
theorem witness_LoadWords :
    (let s := tWord tInst (longWord 0x14 1 4 (1 * 4096 + 0))
     Begins s 0 0 100 (longWord 0x14 1 4 (1 * 4096 + 0)) s
      ∧ ∃ v u, s.load 0 0 100 1 (offsetOf (s.gr 0 0 4) 0) 4 = .ok v u ∧ StillAt u 0 0 100)
    ∧ (let s := tWord tInst (longWord 0x15 30 4 (1 * 4096 + 0xFFC))
     Begins s 0 0 100 (longWord 0x15 30 4 (1 * 4096 + 0xFFC)) s
      ∧ ∃ v u, s.load 0 0 100 1 (offsetOf (s.gr 0 0 4) 0xFFC) 8 = .ok v u ∧ StillAt u 0 0 100) := by
  refine ⟨⟨begins (by decide +kernel), ?_⟩, ⟨begins (by decide +kernel), ?_⟩⟩
  · obtain ⟨v, u, h, k⟩ := acc_of (x := (tWord tInst (longWord 0x14 1 4 (1 * 4096 + 0))).load 0 0 100 1
      (offsetOf ((tWord tInst (longWord 0x14 1 4 (1 * 4096 + 0))).gr 0 0 4) 0) 4)
      (p := fun _ u => still u 0 0 100) (by decide +kernel)
    exact ⟨v, u, h, still_of k⟩
  · obtain ⟨v, u, h, k⟩ := acc_of (x := (tWord tInst (longWord 0x15 30 4 (1 * 4096 + 0xFFC))).load 0 0 100 1
      (offsetOf ((tWord tInst (longWord 0x15 30 4 (1 * 4096 + 0xFFC))).gr 0 0 4) 0xFFC) 8)
      (p := fun _ u => still u 0 0 100) (by decide +kernel)
    exact ⟨v, u, h, still_of k⟩

theorem witness_StoreWords :
    (let s := tWord tInst (longWord 0x1A 1 3 (2 * 4096 + 0))
     Begins s 0 0 100 (longWord 0x1A 1 3 (2 * 4096 + 0)) s
      ∧ ∃ u, s.store 0 0 100 2 (offsetOf (s.gr 0 0 3) 0) 4 (s.gr 0 0 1).toNat = .ok () u ∧ StillAt u 0 0 100)
    ∧ (let s := tWord tInst (longWord 0x1B 0 4 (1 * 4096 + 0xFFC))
     Begins s 0 0 100 (longWord 0x1B 0 4 (1 * 4096 + 0xFFC)) s
      ∧ ∃ u, s.store 0 0 100 1 (offsetOf (s.gr 0 0 4) 0xFFC) 8 ((s.gr 0 0 0).toNat + (s.gr 0 0 1).toNat * 2 ^ 32) = .ok () u
        ∧ StillAt u 0 0 100) := by
  refine ⟨⟨begins (by decide +kernel), ?_⟩, ⟨begins (by decide +kernel), ?_⟩⟩
  · obtain ⟨_, u, h, k⟩ := acc_of (x := (tWord tInst (longWord 0x1A 1 3 (2 * 4096 + 0))).store 0 0 100 2
      (offsetOf ((tWord tInst (longWord 0x1A 1 3 (2 * 4096 + 0))).gr 0 0 3) 0) 4 ((tWord tInst (longWord 0x1A 1 3 (2 * 4096 + 0))).gr 0 0 1).toNat)
      (p := fun _ u => still u 0 0 100) (by decide +kernel)
    exact ⟨u, h, still_of k⟩
  · obtain ⟨_, u, h, k⟩ := acc_of (x := (tWord tInst (longWord 0x1B 0 4 (1 * 4096 + 0xFFC))).store 0 0 100 1
      (offsetOf ((tWord tInst (longWord 0x1B 0 4 (1 * 4096 + 0xFFC))).gr 0 0 4) 0xFFC) 8 (((tWord tInst (longWord 0x1B 0 4 (1 * 4096 + 0xFFC))).gr 0 0 0).toNat + ((tWord tInst (longWord 0x1B 0 4 (1 * 4096 + 0xFFC))).gr 0 0 1).toNat * 2 ^ 32))
      (p := fun _ u => still u 0 0 100) (by decide +kernel)
    exact ⟨u, h, still_of k⟩

/-- A word of work RAM, and one of VRAM. -/
theorem witness_AtomicWords :
    (∀ seg ∈ [1, 2], let s := tWord tInst (longWord 0x16 1 3 (seg * 4096 + 0x7FC))
    Begins s 0 0 100 (longWord 0x16 1 3 (seg * 4096 + 0x7FC)) s
      ∧ s.dataFailure 0 seg (offsetOf (s.gr 0 0 3) 0x7FC) 4 true true true = none ∧ s.journalFull 0 = false
      ∧ s.beatFreeAt 0 seg (offsetOf (s.gr 0 0 3) 0x7FC) 4 100)
    ∧ let s := tWord tInst (longWord 0x16 1 3 (1 * 4096 + 0x7FC))
    Begins s 0 0 100 (longWord 0x16 1 3 (1 * 4096 + 0x7FC)) s
      ∧ ∃ v u, s.atomic 0 0 100 1 (offsetOf (s.gr 0 0 3) 0x7FC) (fun x => (BitVec.ofNat 32 x + s.gr 0 0 1).toNat) = .ok v u
        ∧ StillAt u 0 0 100 := by
  refine ⟨fun seg h => ⟨begins (by revert seg; decide +kernel), by revert seg; unfold State.beatFreeAt; decide +kernel⟩,
    begins (by decide +kernel), ?_⟩
  obtain ⟨v, u, h, k⟩ := acc_of (x := (tWord tInst (longWord 0x16 1 3 (1 * 4096 + 0x7FC))).atomic 0 0 100 1
      (offsetOf ((tWord tInst (longWord 0x16 1 3 (1 * 4096 + 0x7FC))).gr 0 0 3) 0x7FC) (fun x => (BitVec.ofNat 32 x + (tWord tInst (longWord 0x16 1 3 (1 * 4096 + 0x7FC))).gr 0 0 1).toNat))
    (p := fun _ u => still u 0 0 100) (by decide +kernel)
  exact ⟨v, u, h, still_of k⟩

/-- The last bytes of work RAM and of VRAM. -/
theorem witness_LoadsReadMemory : let s := tDev tInst
    s.dataFailure 0 1 0xFFFFC 4 true false false = none ∧ ((s.core 0).seg 1).space = 2 ∧ s.mem.hbmCe = [] ∧ s.mem.hbmUe = []
    ∧ s.dataFailure 0 2 0xFFF8 8 true false false = none ∧ ((s.core 0).seg 2).space = 3 ∧ s.mem.poolCe = [] ∧ s.mem.poolUe = []
    ∧ (s.inst 0).journal = [] ∧ s.beatFreeAt 0 1 0xFFFFC 4 100 ∧ s.beatFreeAt 0 2 0xFFF8 8 100 := by
  unfold State.beatFreeAt; decide +kernel

/-- A held beat of an earlier stamp over the bytes. -/
theorem witness_LoadsReadMemory_waits : let i := { tInst with core := { tCore with beats := [⟨50, true, 0, 2, [(0xFFFC0, List.replicate 64 7)]⟩] } }
    (tDev i).dataFailure 0 1 0xFFFFC 4 true false false = none ∧ ¬ (tDev i).beatFreeAt 0 1 0xFFFFC 4 100 := by
  unfold State.beatFreeAt; decide +kernel

theorem witness_StoresReachMemory : let s := tDev tInst
    s.dataFailure 0 1 0xFFFFF 1 false true false = none ∧ ((s.core 0).seg 1).space = 2
    ∧ s.dataFailure 0 2 0xFFF8 8 false true false = none ∧ ((s.core 0).seg 2).space = 3 ∧ s.journalFull 0 = false
    ∧ s.beatFreeAt 0 1 0xFFFFF 1 100 := by
  unfold State.beatFreeAt; decide +kernel

theorem witness_BranchAndJumpWords : (∀ op ∈ [0x20, 0x21, 0x22],
      Begins (tWord tInst (op * 2 ^ 25 + 31 * 2 ^ 20 + 0xFFFFF)) 0 0 100 (op * 2 ^ 25 + 31 * 2 ^ 20 + 0xFFFFF)
        (tWord tInst (op * 2 ^ 25 + 31 * 2 ^ 20 + 0xFFFFF)))
    ∧ (∀ op ∈ [0x24, 0x25], Begins (tWord tInst (op * 2 ^ 25 + 0x1FFFFFF)) 0 0 100 (op * 2 ^ 25 + 0x1FFFFFF) (tWord tInst (op * 2 ^ 25 + 0x1FFFFFF)))
    ∧ Begins (tWord tInst (longWord 0x26 31 31 0)) 0 0 100 (longWord 0x26 31 31 0) (tWord tInst (longWord 0x26 31 31 0)) :=
  ⟨fun op h => begins (by revert op; decide +kernel), fun op h => begins (by revert op; decide +kernel), begins (by decide +kernel)⟩

theorem witness_SystemWords : ∀ fn ∈ [0x00, 0x01, 0x06],
    Begins (tWord tInst (longWord 0x02 0 0 fn)) 0 0 100 (longWord 0x02 0 0 fn) (tWord tInst (longWord 0x02 0 0 fn)) :=
  fun fn h => begins (by revert fn; decide +kernel)

theorem witness_SpecialRegisterWords : ∀ k ∈ [0, 7, 8, 31],
    Begins (tWord tInst (longWord 0x02 31 0 (k * 1024 + 0x04))) 0 0 100 (longWord 0x02 31 0 (k * 1024 + 0x04))
        (tWord tInst (longWord 0x02 31 0 (k * 1024 + 0x04)))
      ∧ Begins (tWord tInst (longWord 0x02 0 31 (k * 1024 + 0x05))) 0 0 100 (longWord 0x02 0 31 (k * 1024 + 0x05))
        (tWord tInst (longWord 0x02 0 31 (k * 1024 + 0x05))) :=
  fun k h => ⟨begins (by revert k; decide +kernel), begins (by revert k; decide +kernel)⟩

/-- Within a trap, within an interrupt, and within neither. -/
theorem witness_IretReturns : ∀ i ∈ [tWith (fun x => { x with inTrap := true }) id,
      tWith (fun x => { x with stack := [⟨0x80, false, 0⟩], level := 3 }) id, tInst],
    Begins (tWord i (longWord 0x02 0 0 0x02)) 0 0 100 (longWord 0x02 0 0 0x02) (tWord i (longWord 0x02 0 0 0x02)) ∧ i.core.noReturn 0
      ∧ ({ tCore with threads := [{ stack := [⟨0x80, false, 0⟩] }] } : Core).thread 0 = { stack := [⟨0x80, false, 0⟩] } :=
  fun i h => ⟨begins_of (by revert i; decide +kernel) (by revert i; decide +kernel), by
    simp only [List.mem_cons, List.not_mem_nil, or_false] at h
    rcases h with rfl | rfl | rfl <;> exact fun _ he => absurd he List.not_mem_nil, rfl⟩

theorem witness_TrapAndReservedWords :
    Begins (tWord tInst (longWord 0x02 0 0 (31 * 1024 + 0x03))) 0 0 100 (longWord 0x02 0 0 (31 * 1024 + 0x03))
      (tWord tInst (longWord 0x02 0 0 (31 * 1024 + 0x03)))
    ∧ (∀ w ∈ [0x1C * 2 ^ 25, 0x3F * 2 ^ 25 + 0x1FFFFFF, 0x1E, 0x33, 0x3F, 0x02 * 2 ^ 25 + 7, 0x02 * 2 ^ 25 + 63],
      Begins (tWord tInst w) 0 0 100 w (tWord tInst w))
    ∧ (∀ w ∈ [pairWord (0x13 * 1024) 0x7FFF, pairWord 0x7FFF 0], Begins (tWord tInst w) 0 0 100 w (tWord tInst w))
    ∧ Begins (tWord tInst (pairWord (shortOf 0x19 31 31) (0x1F * 1024))) 0 0 100 (pairWord (shortOf 0x19 31 31) (0x1F * 1024))
      (tWord tInst (pairWord (shortOf 0x19 31 31) (0x1F * 1024)))
    ∧ (tInst.core.thread 0).pc.getLsbD 1 = false :=
  ⟨begins (by decide +kernel), fun w h => begins (by revert w; decide +kernel), fun w h => begins (by revert w; decide +kernel), begins (by decide +kernel),
    by decide +kernel⟩

/-- A word for each clause, with the least or the greatest reserved bits. -/
theorem witness_ReservedBitsTrap : ∀ w ∈ [longWord 0x00 31 31 (31 * 1024 + 15 * 64 + 0x32), longWord 0x00 1 1 (1 * 1024 + 0x20),
      longWord 0x00 31 1 (1 * 1024 + 0x18), longWord 0x01 1 1 31, longWord 0x26 31 1 1, longWord 0x0C 1 1 256,
      longWord 0x0E 1 1 0x7FFF, longWord 0x15 31 1 0x7FFF, longWord 0x1B 1 1 0, pairWord 0 0x8000, pairWord 1 0x7FFF, pairWord 0x3FF 0,
      longWord 0x02 1 0 0x00, longWord 0x02 0 0 (1 * 1024 + 0x01), longWord 0x02 0 31 0x02, longWord 0x02 0 0 (15 * 64 + 0x06),
      longWord 0x02 0 1 0x04, longWord 0x02 1 0 0x05],
    Begins (tWord tInst w) 0 0 100 w (tWord tInst w) :=
  fun w h => begins (by revert w; decide +kernel)

theorem witness_ShortInstructions :
    (∀ i ∈ [tInst, tWith (fun x => { x with pc := 0x42 }) id],
      Begins (tWord i (pairWord (shortOf 0x01 31 1) (shortOf 0x19 31 31))) 0 0 100 (pairWord (shortOf 0x01 31 1) (shortOf 0x19 31 31))
        (tWord i (pairWord (shortOf 0x01 31 1) (shortOf 0x19 31 31))))
    ∧ (∀ c ∈ [(0x1A, 1), (0x1C, 3)], let s := tWord tInst (pairWord 0 (shortOf c.1 31 3))
      Begins s 0 0 100 (pairWord 0 (shortOf c.1 31 3)) s
        ∧ ∃ v u, s.load 0 0 100 c.2 (s.gr 0 0 3).toNat 4 = .ok v u ∧ StillAt u 0 0 100)
    ∧ ∀ c ∈ [(0x1B, 1), (0x1D, 3)], let s := tWord tInst (pairWord 0 (shortOf c.1 31 3))
      Begins s 0 0 100 (pairWord 0 (shortOf c.1 31 3)) s
        ∧ ∃ u, s.store 0 0 100 c.2 (s.gr 0 0 3).toNat 4 (s.gr 0 0 31).toNat = .ok () u ∧ StillAt u 0 0 100 := by
  refine ⟨fun i h => begins_of (by revert i; decide +kernel) (by revert i; decide +kernel), fun c hc => ⟨begins (by revert c; decide +kernel), ?_⟩,
    fun c hc => ⟨begins (by revert c; decide +kernel), ?_⟩⟩
  · obtain ⟨v, u, h, k⟩ := acc_of (x := (tWord tInst (pairWord 0 (shortOf c.1 31 3))).load 0 0 100 c.2
      ((tWord tInst (pairWord 0 (shortOf c.1 31 3))).gr 0 0 3).toNat 4) (p := fun _ u => still u 0 0 100) (by revert c; decide +kernel)
    exact ⟨v, u, h, still_of k⟩
  · obtain ⟨_, u, h, k⟩ := acc_of (x := (tWord tInst (pairWord 0 (shortOf c.1 31 3))).store 0 0 100 c.2
      ((tWord tInst (pairWord 0 (shortOf c.1 31 3))).gr 0 0 3).toNat 4 ((tWord tInst (pairWord 0 (shortOf c.1 31 3))).gr 0 0 31).toNat)
      (p := fun _ u => still u 0 0 100) (by revert c; decide +kernel)
    exact ⟨u, h, still_of k⟩

/-! Ill-formed commands, one for each check of WellFormed. -/

/-- Instances 512 and above, threads 4 and above, and registers and fields beyond their bits (R1, R301, R305, R306). -/
theorem test_wf_words_refused :
    ([.add 512 0 ⟨1, 2, 3, 0⟩, .add 0 4 ⟨1, 2, 3, 0⟩, .add 0 0 ⟨32, 2, 3, 0⟩, .add 0 0 ⟨1, 32, 3, 0⟩, .add 0 0 ⟨1, 2, 32, 0⟩, .add 0 0 ⟨1, 2, 3, 16⟩,
      .sel 0 0 ⟨1, 2, 3, 32, 0⟩, .sel 0 0 ⟨1, 2, 3, 4, 32⟩, .mtsr 0 0 ⟨0, 1, 32, 0⟩, .mtsr 0 0 ⟨0, 1, 2, 1024⟩, .addi 0 0 ⟨1, 2, 32768⟩,
      .lw 0 0 ⟨1, 2, 8, 0⟩, .lw 0 0 ⟨1, 2, 3, 4096⟩, .bz 0 0 ⟨1, 1048576⟩, .lui 0 0 ⟨1, 1048576⟩, .j 0 0 ⟨33554432⟩,
      .pair 0 0 ⟨32768, 0, 0⟩, .pair 0 0 ⟨0, 2, 0⟩, .pair 0 0 ⟨0, 0, 32768⟩, .interruptEntry 0 4] : List Instr).all (fun i => !i.wf) = true := by
  decide

/-- Paths that do not reach a register, widths that are none, and units that the device does not have. -/
theorem test_wf_operands_refused :
    ([.registerWrite .pf (.pf 0x4000000) 4 0, .registerWrite .pf (.win 512 0) 4 0, .registerWrite .vf (.bar2 0 0x40000) 4 0,
      .registerWrite .vf (.pf 0) 4 0, .registerWrite (.mgt 2) (.pf 0xB00000) 4 0, .registerWrite (.mgt 0) (.pf 0) 4 0,
      .registerWrite .pf (.pf 0) 3 0, .registerWrite .pf (.pf 0) 4 0x100000000, .icuEoi (.mgt 0) 0 0, .icuEoi (.prog 4) 0 0,
      .coldPowerUp 8, .boot ⟨true, true, 2 ^ 20, 0, 0, 0, 0, 0⟩, .timerTick 0 4, .eventPulse 0 44, .threeFlopPulseAction 0 33, .icuSrcCfgWrite .pf 0 64 0,
      .lineDispatch 0 20, .rendererRotation 4 true, .blitJobTake 8, .coreTest 66 true, .monitorFrameStart 2, .auditRun 0 16 0 .pass,
      .undoCopy 0 1 0, .cmdEntry 0 [], .inputArrive 0 [], .leafMove 131072 0 none, .moverFill 4 [], .hstVfDb .vf 0 5 0, .ringReadFail 0 2,
      .flr 512, .vfEnableClear 513, .channelWatchdogExpire 16, .rampEnd 15, .poolSelfTest 32 true, .lockstepMismatch 2, .gpioEdge 47 true 16, .clockMonitorWindow .cclk 65536 false, .coreParityFault 66, .tamperAssert 2,
      .gpioCfgWrite .host 48 0, .gpioTgl .host 2 0, .extest (2 ^ 48), .dpLinkTrain 2 1 1, .bellSurfaceWrite 0x3000 1 0] : List Instr).all
      (fun i => !i.wf) = true := by decide +kernel

/-- Operands at the ends of their ranges are accepted. -/
theorem test_wf_accepts :
    ([.add 511 3 ⟨31, 31, 31, 15⟩, .pair 0 0 ⟨32767, 1, 32767⟩, .registerWrite .pf (.pf 0x3FFFFFF) 1 255, .registerWrite .vf (.bar2 511 0x3FFFF) 8 0,
      .coldPowerUp 7, .hstVfDb .vf 511 4 0, .gpioCfgWrite .safe 47 0, .rampEnd 14, .coreTest 65 false] : List Instr).all (·.wf) = true := by decide

/-! Words written out bit by bit from the encodings of R304 to R317: what thread 0 has after each. g1 to g4 hold 7, 0xFFFFFFFD, 0x80 and
0xFFFFC. -/

/-- A command answers a next state with the property. -/
def runs (r : Result) (p : State → Bool) : Bool := match r with | .next u => p u | _ => false

/-- F 0, OP 0x00, gd 5, ga 1, gb 2, 0000, FN 0x00: 7 + 0xFFFFFFFD wraps to 4 (R315, R318). -/
theorem test_add_word : runs (exec (.add 0 0 ⟨5, 1, 2, 0⟩) (tWord tInst 0b0_000000_00101_00001_00010_0000_000000))
    (fun u => u.gr 0 0 5 == 4 && ((u.core 0).thread 0).pc == 0x44) = true := by decide +kernel
/-- DIVS g6, g2, g1; SEL g5, g1, g2, g3; LUI g5; ADDI g5, g1, -1; LB g5 through SEG[1] with ga 3; CALL two words on; JALR g31, g1; MTSR of
SCRATCH0 from g1; TRAP 9: each field in its place (R305, R314 to R316). -/
theorem test_words : isAlu 0x18 ⟨6, 2, 1, 0⟩ 0b0_000000_00110_00010_00001_0000_011000 = true
    ∧ isSel ⟨5, 1, 2, 3, 0⟩ 0b0_000001_00101_00001_00010_00011_00000 = true ∧ isLui ⟨5, 0x80001⟩ 0b0_000011_00101_1000_0000_0000_0000_0001 = true
    ∧ isImm 0x04 ⟨5, 1, 0x7FFF⟩ 0b0_000100_00101_00001_111111111111111 = true
    ∧ isMem 0x10 ⟨5, 3, 1, 0xFC0⟩ 0b0_010000_00101_00011_001_111111000000 = true
    ∧ isJmp 0x25 ⟨2⟩ 0b0_100101_0000000000000000000000010 = true ∧ isImm 0x26 ⟨31, 1, 0⟩ 0b0_100110_11111_00001_00000_0000_000000 = true
    ∧ isSys 0x05 ⟨0, 1, 6, 0⟩ 0b0_000010_00000_00001_00110_0000_000101 = true
    ∧ isSys 0x03 ⟨0, 0, 9, 0⟩ 0b0_000010_00000_00000_01001_0000_000011 = true := by decide
/-- OP 0x1A, gd 2, ga 3, segment 1, imm12 4: a store to work RAM offset 0x84, little-endian (R2). -/
theorem test_sw_word : runs (exec (.sw 0 0 ⟨2, 3, 1, 4⟩) (tWord tInst 0b0_011010_00010_00011_001_000000000100))
    (fun u => getBytes u.hbm 0x10000083 6 == [0, 0xFD, 0xFF, 0xFF, 0xFF, 0]) = true := by decide +kernel
/-- OP 0x22, gc 1, disp20 -2: 7 becomes 6, and the branch goes back two words. -/
theorem test_dbnz_word : runs (exec (.dbnz 0 0 ⟨1, 0xFFFFE⟩) (tWord tInst 0b0_100010_00001_1111_1111_1111_1111_1110))
    (fun u => u.gr 0 0 1 == 6 && ((u.core 0).thread 0).pc == 0x38) = true := by decide +kernel

/-! The manual's worked examples. -/

/-- The pair of LW3 g4, [g2] and SHRI g4, 16 (R309, the example after it). -/
theorem test_pair_encoding : fmtP 0xF0825C90 = ⟨0x7082, 0, 0x5C90⟩ ∧ bits 0x7082 14 10 = 0x1C ∧ bits 0x7082 9 5 = 4 ∧ bits 0x7082 4 0 = 2
    ∧ bits 0x5C90 14 10 = 0x17 ∧ bits 0x5C90 9 5 = 4 ∧ bits 0x5C90 4 0 = 16 := by decide
/-- The pair 0xCC22_0823 at offset 0x1230 with stamp 52,000: A traps RSVD_OP, and the handler starts at 52,005 at INST_TVEC + 4 (the
example before R335). -/
theorem test_pair_traps :
    let i := tWith (fun x => { x with pc := 0x1230, pos := 52000 }) fun c => { c with regs := (O.INST_TVEC, 0x100) :: c.regs, nextLine := 1000, mix := { next := 1000 } }
    runs (exec (.pair 0 0 ⟨0x4C22, 0, 0x0823⟩) { tDev i with hbm := putBytes [] 0x10001230 (leBytes 4 0xCC220823) })
      (fun u => let x := (u.core 0).thread 0
        x.epc == 0x1230 && x.trapInfo == 0xCC220823 && x.trapCause == 1 && x.trapAddr == 0 && x.inTrap && x.pc == 0x104 && x.pos == 52005
          && x.gr 1 == 7) = true := by decide +kernel
/-- The timer block of instance 300 (the example after R13). -/
theorem test_window_300 : pfTarget 0x32C1400 = .win 300 0x1400 := by decide
/-- A 32-bit read of offset 0 (the example after R11). -/
theorem test_ident : runs (exec (.readClear .pf (.pf 0) 4) (tDev tInst)) (fun u => u.answer == some (.data 0x85120300)) = true := by decide +kernel
/-- VID_BEAM of a class B instance at 399,180 and 399,215 (the example after R98). -/
theorem test_beam : let i : Inst := { tInst with adm := { tInst.adm with cls := 1 }, core := { tCore with timing := 0x5A0028 } }
    i.beamAt 399180 = BitVec.ofNat 32 (99 * 65536 + 636) ∧ i.beamAt 399215 = BitVec.ofNat 32 (2 ^ 30 + 99 * 65536 + 643) := by decide +kernel
/-- The composer's pixel (the example after R186). -/
theorem test_blend : blendPixel 1 128 (argbOf 255 0xFF8020) 0x101010 = 0x884818 ∧ blendPixel 2 255 (argbOf 255 0x0040FF) 0x884818 = 0x8888FF := by decide
/-- Block (0, 5) and the block after it (the example after R242). -/
theorem test_block_codec :
    let px := List.replicate 32 0x3060C0 ++ List.replicate 5 0x20A040 ++ [0xFFFFFF] ++ List.replicate 26 0x20A040
    encodeBlock 3 none px = [0x82, 0xC0, 0x60, 0x30, 0x40, 0xA0, 0x20, 0xFF, 0xFF, 0xFF, 0, 0, 0, 0, 0, 0, 0, 0, 0x55, 0x59, 0x55, 0x55, 0x55, 0x55, 0x55, 0x55]
      ∧ encodeBlock 3 (some px) px = [0xC0] := by decide +kernel
/-- VRAM offset 0x1_2348 of an instance with base 444 (the example after R401). -/
theorem test_vram_base : (tDev { tInst with adm := { tInst.adm with pool := 444, vram := 12 } }).vramAt 0 0x12348 = 0x702348 := by decide
/-- The spans of the COPY from (0, 8) to (16, 0) and its length (the example after R222). -/
theorem test_blit_spans : let d : BlitDesc := ⟨0, 0x140010, 0x80000, 0x140010, 0x10, 0xB4012C, 0, 0, 0⟩
    d.srcSpan.2 = 92907 ∧ d.dstSpan.2 = 90363 ∧ d.n = 54000 ∧ d.descend = (false, true) := by decide +kernel
/-- The addresses of the packet of instance 77 in its STREAM ring (the example after R480). -/
theorem test_stream_ring : let v : Vf := { regs := [(O.HST_VF_RING_LO + 96, 0x34400000), (O.HST_VF_RING_HI + 96, 0x12), (O.HST_VF_RING_SIZE + 96, 16),
      (O.HST_VF_RING_CTRL + 96, 1), (O.HST_VF_DEV_PTR + 96, 64000), (O.HST_VF_DB + 12288, 60000)], enabled := true, bme := true }
    v.ringAddr 3 (v.devPtr 3) = 0x12347E8000 ∧ v.ringRoom 3 = 61535 ∧ (v.advance 3 2817).devPtr 3 = 1281 := by decide +kernel
/-- Log entry 10,251 is at index 2,058 (the example after R78). -/
theorem test_log_offset : O.MGT_LOG + 32 * (10250 % 4096) = 0x100000 + 0x30140 := by decide

/-! Witnesses of the statements about checks, interrupts and the window. -/

/-- An instance whose segments 4 to 7 meet the checks of R311: a small limit, a base at the end of work RAM, cartridge space, none. -/
def tSeg : Inst := tWith (fun x => { x with g := [(1, 7), (3, 0x80)] }) fun c =>
  { c with regs := [(0x108, 0x27), (0x114, 0xFFFFF), (0x124, 0xFFFF), (0x144, 0x7F), (0x148, 0x23), (0x150, 0x400), (0x154, 0xFF), (0x158, 0x23),
      (0x168, 0x11)] }

/-- ALIGN, no segment, a right, the limit, the space, and an atomic on IO, each the first check that fails. -/
theorem witness_AccessChecksTrap :
    (∀ x ∈ [(longWord 0x14 1 3 (1 * 4096 + 2), 1, 2, 4, true, false, false, 0x30), (longWord 0x14 1 3 (7 * 4096), 7, 0, 4, true, false, false, 0x20),
        (longWord 0x1A 1 3 (6 * 4096), 6, 0, 4, false, true, false, 0x21), (longWord 0x14 1 3 (4 * 4096), 4, 0, 4, true, false, false, 0x22),
        (longWord 0x18 1 3 (5 * 4096), 5, 0, 1, false, true, false, 0x23), (longWord 0x16 1 3 (3 * 4096), 3, 0, 4, true, true, true, 0x24)],
      Begins (tWord tSeg x.1) 0 0 100 x.1 (tWord tSeg x.1)
        ∧ (tWord tSeg x.1).dataFailure 0 x.2.1 (offsetOf ((tWord tSeg x.1).gr 0 0 3) (BitVec.ofNat 12 x.2.2.1)) x.2.2.2.1 x.2.2.2.2.1
          x.2.2.2.2.2.1 x.2.2.2.2.2.2.1 = some x.2.2.2.2.2.2.2)
    ∧ (tDev tInst).noCause ∧ (tDev tInst).clean ∧ (∀ i ∈ [tWith (fun x => { x with pc := 0x41 }) id, tWith (fun x => { x with pc := 0x100000 }) id],
      (i.turnOf (.thread 0)).map keyStamp = some 100 ∧ (i.core.thread 0).waiting = false ∧ i.core.eligible 0 = 0
        ∧ 0 < i.core.threads.length)
    ∧ (let s := tDev (tWith (fun x => { x with pc := 0x100000 }) id)
      firstFailure (fetchChecks ((s.core 0).seg 0) (s.spaceSize 0 ((s.core 0).seg 0).space) 0x100000) = some 0x12) :=
  ⟨fun x h => ⟨begins_of (by decide +kernel) (by revert x; decide +kernel), by revert x; decide +kernel⟩, quiet_of (by decide +kernel), clean_of rfl,
    by decide +kernel, by decide +kernel⟩

theorem witness_RegisterWordsFrame : (∀ w ∈ [longWord 0x00 1 2 (3 * 1024 + 0x00), longWord 0x00 1 2 0x23, longWord 0x00 2 3 (1 * 1024 + 0x18),
      longWord 0x04 1 2 0x7FFF, longWord 0x0C 1 2 31, 0x03 * 2 ^ 25, longWord 0x01 1 2 0, 0x20 * 2 ^ 25, 0x21 * 2 ^ 25, 0x22 * 2 ^ 25,
      0x24 * 2 ^ 25, 0x25 * 2 ^ 25, longWord 0x26 1 2 0], Begins (tWord tInst w) 0 0 100 w (tWord tInst w))
    ∧ ((tDev tInst).core 0).micro = [] ∧ (let w := longWord 0x00 1 2 (3 * 1024 + 0x00); isAlu 0x00 (fmtR w) w = true)
    ∧ (let w := longWord 0x00 1 2 0x23; isAlu 0x23 (fmtR w) w = true) ∧ (let w := longWord 0x00 2 3 (1 * 1024 + 0x18); isAlu 0x18 (fmtR w) w = true)
    ∧ (let w := longWord 0x04 1 2 0x7FFF; isImm 0x04 (fmtI w) w = true) ∧ (let w := longWord 0x0C 1 2 31; isImm 0x0C (fmtI w) w = true)
    ∧ (let w := 0x03 * 2 ^ 25; isLui (fmtU w) w = true) ∧ (let w := longWord 0x01 1 2 0; isSel (fmtSel w) w = true)
    ∧ (∀ op ∈ [0x20, 0x21, 0x22], isBr op (fmtB (op * 2 ^ 25)) (op * 2 ^ 25) = true)
    ∧ (∀ op ∈ [0x24, 0x25], isJmp op (fmtJ (op * 2 ^ 25)) (op * 2 ^ 25) = true)
    ∧ (let w := longWord 0x26 1 2 0; isImm 0x26 (fmtI w) w = true) :=
  ⟨fun w h => begins (by revert w; decide +kernel), rfl, by decide +kernel⟩

theorem witness_FetchLeavesThreads : ((tDev tInst).core 0).seg 0 = ⟨0, 0xFFFFFF, 0x27⟩ ∧ SegVal.space ⟨0, 0xFFFFFF, 0x27⟩ ≠ 4
    ∧ gives (tWord tInst 0xFFFFFFFF) 0xFFFFFFFF = true := by decide +kernel

/-- Source 0 is enabled at level 3 for thread 0 and pending. -/
def tIrq (wait : Bool) : Inst := tWith (fun x => { x with waiting := wait }) fun c =>
  { c with regs := [(0x108, 0x27), (0x114, 0xFFFFF), (0x124, 0xFFFF), (O.ICU_SRC_CFG, 0x113)], latched := 1 }

theorem witness_InterruptEntryAndWake : (tDev (tIrq false)).clean ∧ (tDev (tIrq true)).clean ∧ (tDev (tIrq false)).noCause ∧ (tDev (tIrq true)).noCause
    ∧ ((tIrq false).turnOf (.thread 0)).isSome = true ∧ ((tIrq false).core.thread 0).waiting = false ∧ (tIrq false).core.eligible 0 = 3
    ∧ ((tIrq true).turnOf (.thread 0)).isSome = true ∧ ((tIrq true).core.thread 0).waiting = true ∧ 0 < (tIrq true).core.threads.length :=
  ⟨clean_of rfl, clean_of rfl, quiet_of (by decide +kernel), quiet_of (by decide +kernel), by decide +kernel, by decide +kernel, by decide +kernel, by decide +kernel,
    by decide +kernel, by decide +kernel⟩

/-- Thread 0 with a window offset in g5, at an SW of g1 or an LW to g1 through SEG[3]. -/
def tIo (off : Nat) (store : Bool) : State :=
  tWord (tWith (fun x => { x with g := [(1, 7), (5, BitVec.ofNat 32 off)] }) id) (longWord (if store then 0x1A else 0x14) 1 5 (3 * 4096))

/-- The first and the last register of each row. -/
theorem witness_ProgramPathRowsAreWords :
    (∀ off ∈ [O.INST_THREAD_CTRL, O.ICU_EOI, O.EVT_SW, O.VID_TIMING, O.CMP_COMMIT, O.BLT_SUBMIT, 0x400, 0x400 + 0x300 + 252, O.ICU_SRC_CFG,
        O.ICU_SRC_CFG + 252, O.TIM_CTRL, O.TIM_CTRL + 96, O.DMA_CTRL, O.DMA_CTRL + 96, O.AUD_V_CTRL, O.AUD_V_CTRL + 960],
      (tIo off true).nextAccess 0 0 off (some 7) = some ⟨1, 5, 3, 0⟩)
    ∧ ∀ off ∈ [O.ICU_CLAIM, O.VID_VC_LO, O.AUD_SAMPLE_LO, O.TIM_CAPT, O.TIM_CAPT + 96],
      (tIo off false).nextAccess 0 0 off none = some ⟨1, 5, 3, 0⟩ := by decide +kernel

/-- Two sources of one level pend while thread 0 handles level 3; and none pends. -/
def tClaim (latched : Nat) : Inst :=
  tWith (fun x => { x with g := [(5, BitVec.ofNat 32 O.ICU_CLAIM)], stack := [⟨0x80, false, 0⟩], level := 3 }) fun c =>
    { c with regs := [(0x108, 0x27), (0x114, 0xFFFFF), (0x124, 0xFFFF), (O.ICU_SRC_CFG, 0x113), (O.ICU_SRC_CFG + 252, 0x113)], latched }
def tClaimWord : Nat := longWord 0x14 1 5 (3 * 4096)

theorem witness_ClaimTakesHighestLevel :
    (∀ l ∈ [2 ^ 63 + 1, 0], Begins (tWord (tClaim l) tClaimWord) 0 0 100 tClaimWord (tWord (tClaim l) tClaimWord)
      ∧ (tWord (tClaim l) tClaimWord).nextAccess 0 0 O.ICU_CLAIM none = some ⟨1, 5, 3, 0⟩)
    ∧ (let c := (tClaim (2 ^ 63 + 1)).core
      ((List.range 64).filter fun k => c.srcTargets k 0 && c.srcPending k) = [0, 63] ∧ c.srcLevel 0 = 3 ∧ c.srcLevel 63 = 3 ∧ c.claims = [])
    ∧ ((List.range 64).filter fun k => (tClaim 0).core.srcPending k) = [] ∧ ((tClaim 0).core.seg 0).space ≠ 4 ∧ (tClaim 0).core.micro = [] :=
  ⟨fun l h => ⟨begins_of (by revert l; decide +kernel) (by revert l; decide +kernel), by revert l; decide +kernel⟩, by decide +kernel,
    by decide +kernel, by decide +kernel, rfl⟩

/-- The host reaches the window through the PF and through the VF, of a Playing and of a Held instance. -/
def tHeld : Inst := { tInst with rung := .held }
theorem reaches (i : Inst) (h : i = tInst ∨ i = tHeld) (p : Path) (hp : p = .pf ∨ p = .vf) : HostReaches (tDev i) p 0 :=
  ⟨hp, ⟨by rcases h with rfl | rfl <;> rcases hp with rfl | rfl <;> decide +kernel,
    fun m => by rcases h with rfl | rfl <;> exact absurd m (by decide +kernel)⟩, by rcases h with rfl | rfl <;> rfl⟩

theorem witness_HostWritesWaitForTheBoundary : (∀ p, p = Path.pf ∨ p = .vf → HostReaches (tDev tInst) p 0)
    ∧ ((tDev tInst).inst 0).rung = .playing ∧ (tDev tInst).noCause := ⟨reaches _ (.inl rfl), rfl, quiet_of (by decide +kernel)⟩

theorem witness_HostWritesThreads : (∀ p, p = Path.pf ∨ p = .vf → HostReaches (tDev tHeld) p 0)
    ∧ ((tDev tHeld).inst 0).rung = .held ∧ (tDev tHeld).noCause ∧ 0 < tHeld.adm.slots ∧ 0 < tHeld.core.threads.length :=
  ⟨reaches _ (.inr rfl), rfl, quiet_of (by decide +kernel), by decide +kernel, by decide +kernel⟩

theorem witness_HostWritesControllers : (∀ p, p = Path.pf ∨ p = .vf → HostReaches (tDev tHeld) p 0)
    ∧ ((tDev tHeld).inst 0).rung = .held ∧ (tDev tHeld).noCause := ⟨reaches _ (.inr rfl), rfl, quiet_of (by decide +kernel)⟩

/-- A channel that is idle and one that is busy; voices 0 to 15. -/
theorem witness_HostWritesEngines : (∀ p, p = Path.pf ∨ p = .vf → HostReaches (tDev tHeld) p 0)
    ∧ ((tDev tHeld).inst 0).rung = .held ∧ (tDev tHeld).noCause ∧ tHeld.core.dma.length = 4 ∧ tHeld.core.mix.voices.length = 16
    ∧ (tHeld.core.dma.getD 3 {}).active = false ∧ (({} : Core).dma.set 3 { active := true }).getD 3 {} = { active := true } :=
  ⟨reaches _ (.inr rfl), rfl, quiet_of (by decide +kernel), by decide +kernel, by decide +kernel, by decide +kernel, by decide +kernel⟩

theorem witness_HostReadsClocks : (∀ p, p = Path.pf ∨ p = .vf → HostReaches (tDev tInst) p 0) ∧ (tDev tInst).noCause :=
  ⟨reaches _ (.inl rfl), quiet_of (by decide +kernel)⟩

/-! Witnesses of the statements about events of virtual time. -/

/-- Instance 0 with no thread that runs, its mixer, lines and latches far ahead, and the state of its core as `g` makes it. -/
def tEv (g : Core → Core) : Inst :=
  { tInst with core := g { threads := [{}, {}, {}, {}], mix := { next := 100000 }, nextLine := 100000, nextLtch := 1000, timing := 0x3C0014 } }

/-- An option that answers, as a test on what it answers. -/
theorem opt_of {α : Type} {x : Option α} {p : α → Bool} (h : (match x with | some a => p a | none => false) = true) :
    ∃ a, x = some a ∧ p a = true := by
  cases x with
  | none => cases h
  | some a => exact ⟨a, rfl, h⟩
/-- No detected cause, and no uncorrectable word, as a test. -/
def quiet (s : State) : Bool := (s.safety.found.isEmpty && s.insts.all fun e => e.2.found.isEmpty) && tidy s
theorem calm_of {s : State} (h : quiet s = true) : s.noCause ∧ s.clean := by
  simp only [quiet, Bool.and_eq_true] at h
  exact ⟨quiet_of (by simpa using h.1), clean_of h.2⟩

/-- A vc timer, a beam timer at line 0 dot 0, a pulse with THREE_FLOP at 1 and at 0, and delayed pulses 2 and 3 vc after the last action. -/
theorem witness_TimersAndPulses :
    (tDev (tEv fun c => { c with timNext := [some 50, none, none, none] })).noCause
    ∧ (tEv fun c => { c with timNext := [some 50, none, none, none] }).turnOf (.tick 0) = some (keyOf 50 3 0)
    ∧ (({ tEv fun c => { c with regs := [(O.BTIM_CTRL + 24, 1)] } with released := 3 } : Inst).turnOf (.btim 3)).isSome = true
    ∧ (tEv fun c => { c with pulses := [⟨50, 5, none⟩] }).turnOf (.pulse 5 none) = some (keyOf 50 2 0)
    ∧ tb (({ tDev (tEv fun c => { c with pulses := [⟨50, 5, none⟩] }) with regs := [(O.CDC_INST_MODE, 1)] } : State).pf O.CDC_INST_MODE).toNat 0 = true
    ∧ tb ((tDev (tEv id)).pf O.CDC_INST_MODE).toNat 0 = false
    ∧ (∀ a ∈ [8, 11, 12, 15, 32], (tEv fun c => { c with pulses := [⟨50, 5, some a⟩], lastAct := [(a, 48)] }).turn
        = some (keyOf 50 2 (a + 1), .pulse 5 (some a)))
    ∧ (0 < 48 ∧ 48 < 50 ∧ 50 ≤ 48 + 2) ∧ ¬ (0 < 47 ∧ 47 < 50 ∧ 50 ≤ 47 + 2) :=
  ⟨quiet_of (by decide +kernel), by decide +kernel, by decide +kernel, by decide +kernel, by decide +kernel, by decide +kernel, by decide +kernel,
    by decide, by decide⟩

/-- Channel 0 from work RAM to VRAM, `count` bytes, checked or not. -/
def tDma (count src dst : Nat) (checked : Bool) : Inst := tEv fun c =>
  { c with
    regs := [(0x114, 0xFFFFF), (0x124, 0xFFFF)]
    dma := [{ active := true, start := 48, count, src, dst, srcSeg := 1, dstSeg := 2, checked, sv := ⟨0, 0xFFFFF, 0x23⟩, dv := ⟨0, 0xFFFF, 0x33⟩ }, {}, {}, {}] }

/-- COUNT 0; a source beyond its limit; a destination that passes its limit by one byte; a transfer that fits to the byte; and a beat. -/
theorem witness_DmaTransfers :
    (∀ x ∈ [(0, 0, 0), (4, 0x100000, 0), (64, 0, 0xFFC1), (64, 0xFFFC0, 0xFFC0)], (tDma x.1 x.2.1 x.2.2 false).turnOf (.dmaCheck 0) = some (keyOf 50 7 0))
    ∧ (let s := tDev (tDma 64 0xFFFC0 0xFFC0 false); s.noCause ∧ s.clean)
    ∧ (let x := ((tDev (tDma 0 0 0 false)).core 0).dma.getD 0 {}
       x.active = true ∧ x.checked = false ∧ x.start + 2 = 50 ∧ x.count = 0)
    ∧ (tDev (tDma 64 0xFFFC0 0xFFC0 false)).dmaVerdict 0 (((tDev (tDma 64 0xFFFC0 0xFFC0 false)).core 0).dma.getD 0 {}) = none
    ∧ (let c := tDev (tDma 0 0 0 false)
      firstFailure (sideChecks ((c.core 0).seg 1) (c.spaceSize 0 ((c.core 0).seg 1).space) 0 0x100000 4) = some 3
      ∧ firstFailure (sideChecks ((c.core 0).seg 1) (c.spaceSize 0 ((c.core 0).seg 1).space) 0 0 64) = none
      ∧ firstFailure (sideChecks ((c.core 0).seg 2) (c.spaceSize 0 ((c.core 0).seg 2).space) 1 0xFFC1 64) = some 3
      ∧ firstFailure (sideChecks ((c.core 0).seg 1) (c.spaceSize 0 ((c.core 0).seg 1).space) 0 0xFFFC0 64) = none
      ∧ firstFailure (sideChecks ((c.core 0).seg 2) (c.spaceSize 0 ((c.core 0).seg 2).space) 1 0xFFC0 64) = none)
    ∧ (let s := tDev (tDma 64 0xFFFC0 0xFFC0 true)
      (s.inst 0).turnOf .dmaRead = some (keyOf 50 7 8) ∧ (s.core 0).dmaPick = some 0
      ∧ ((s.core 0).beats.filter fun b => b.dma && b.unit == 0).length < 16 ∧ s.wrBlocked 0 3 0xFFC0 64 = (none, none)
      ∧ (match s.rdEngine 0 50 2 0xFFFC0 64 with | .ok d u => d == List.replicate 64 0 && u == s | _ => false) = true) :=
  ⟨by decide +kernel, ⟨quiet_of (by decide +kernel), clean_of rfl⟩, by decide +kernel, by decide +kernel, by decide +kernel, by decide +kernel⟩

/-- A beat for VRAM and one for work RAM; a journal entry for VRAM and one for a register. -/
theorem witness_WritesLand :
    (∀ sp ∈ [2, 3], let i := tEv fun c => { c with beats := [⟨50, true, 0, sp, [(0xFFC0, List.replicate 64 7)]⟩] }
      i.turnOf .beat = some (keyOf 50 6 0) ∧ i.core.nextBeat = some ⟨50, true, 0, sp, [(0xFFC0, List.replicate 64 7)]⟩ ∧ i.beatFree 50 = true
        ∧ i.core.micro = [] ∧ quiet (tDev i) = true)
    ∧ ∀ r ∈ [false, true], let i := { tEv id with journal := [⟨101, r, 0x2040, [some 1, some 2, some 3, some 4]⟩] }
      i.headFree = true ∧ quiet (tDev i) = true ∧ [some 1, some 2, some 3, some 4] = List.map some ([1, 2, 3, 4] : List Byte) := by
  decide +kernel

theorem witness_AudioSampleAdvances : let i := tEv fun c => { c with mix := { next := 1 } }
    (i.turnOf .sample).isSome = true ∧ quiet (tDev i) = true ∧ (tDev i).mem.hbmCe = [] ∧ i.catchUp = none ∧ i.builds = []
    ∧ (({ i with catchUp := some ⟨3, false⟩ } : Inst).turnOf .sample).isSome = true := by decide +kernel

/-- A blit job of 2 by 1 bytes from VRAM offset 0 to 2048 dst pixels; an empty one; one beyond the quota. -/
def tJob (size dst : Nat) (phase : BlitPhase) (checked : Bool) : BlitJob :=
  { seq := 1, desc := ⟨0, 0, 0, dst, 0, size, 0, 0, 1⟩, stamp := 48, start := 50, phase, checked }
def tBlit (j : BlitJob) : Inst := tEv fun c => { c with regs := [(0x114, 0xFFFFF), (0x124, 0xFFFF)], blits := [j] }

theorem witness_BlitJobs :
    (∀ x ∈ [(0x10002, 31, 0), (0x10002, 32, 1), (0x10000, 31, 0)],
      (tBlit (tJob x.1 x.2.1 .running false)).turnOf .blitStart = some (keyOf 50 7 16)
        ∧ (tJob x.1 x.2.1 .running false).desc.check ((tDev (tBlit (tJob x.1 x.2.1 .running false))).quota 0) true = x.2.2)
    ∧ quiet (tDev (tBlit (tJob 0x10002 31 .running false))) = true
    ∧ (tJob 0x10002 31 .running false).desc.n = 2 ∧ (tJob 0x10000 31 .running false).desc.n = 0
    ∧ (let j := tJob 0x10002 31 .running true
       let s := tDev (tBlit j)
       (s.inst 0).turnOf .blitRead = some (keyOf 50 7 24) ∧ (s.core 0).blits = [j] ∧ (s.core 0).beats.countP (fun b => !b.dma) < 64
       ∧ (j.pixels.findSome? fun p => (s.wrBlocked 0 (match j.pixels with | (_, t, _) :: _ => t | [] => 3) p.2.2 j.desc.b).1) = none
       ∧ (match s.readPixels 0 50 j.desc.b j.desc.fill j.pixels [] with | (.ok _ u, _) => u == s | _ => false) = true) := by decide +kernel

/-- A job that waits with a credit of its instance, and with one of the port; one queued, one on an engine with 64 beats held, and one set aside. -/
theorem witness_BlitEnginesTakeJobs :
    (let s : State := { tDev (tBlit (tJob 0x10002 31 .waiting false)) with image := { admitted := 1, credits := [⟨7, 0, 1, 1, 0, 1⟩] } }
     quiet s = true ∧ (s.blitCredits 0).2 = true ∧ ((s.core 0).blits.find? fun j => j.phase == .waiting) = some (tJob 0x10002 31 .waiting false)
      ∧ s.blitQueue = [] ∧ 0 < (s.blitCredits 0).1)
    ∧ (let s : State := { tDev (tBlit (tJob 0x10002 31 .waiting false)) with
                            image := { admitted := 1, credits := [⟨7, 0, 1, 0, 0, 2⟩] }, eng := { blitWait := [(0, 1)] } }
       quiet s = true ∧ ((s.core 0).blits.find? fun j => j.phase == .waiting) = some (tJob 0x10002 31 .waiting false)
        ∧ s.blitQueue = [] ∧ s.blitCredits 0 = (2, false) ∧ s.portNext = some (0, 1))
    ∧ (let s : State := { tDev (tBlit (tJob 0x10002 31 .queued false)) with eng := { blitQ := [(0, 1)] } }
       quiet s = true ∧ (s.blitQueue.find? fun q => ((s.core q.1).blits.head?.map (·.seq)) == some q.2) = some (0, 1)
        ∧ s.engineFree 0 = true ∧ s.engineFree 7 = true)
    ∧ (let i := tBlit (tJob 0x10002 31 .running false)
       let i := { i with core := { i.core with beats := List.replicate 64 ⟨60, false, 1, 3, []⟩ } }
       let s : State := { tDev i with eng := { blit := [(7, 0, 1)] } }
       quiet s = true ∧ s.engineJob 7 = some (0, 1) ∧ 64 ≤ (s.core 0).beats.countP (fun b => !b.dma))
    ∧ (let s := tDev (tBlit (tJob 0x10002 31 .aside false))
       quiet s = true ∧ s.insts = [(0, tBlit (tJob 0x10002 31 .aside false))] ∧ (s.core 0).beats = [] ∧ s.engineFree 7 = true) := by
  decide +kernel

/-- The instance at boundary 1. -/
def tBound : Inst := { tEv id with ckptDone := true }

/-- With the input of frame 1 held, and, once the deadline has passed, without; a deadline that has passed, and one that has not. -/
theorem witness_FramePacing : quiet (tDev tBound) = true ∧ ((tDev tBound).inst 0).runs = true ∧ ((tDev tBound).inst 0).catchUp = none
    ∧ (∀ w ∈ [84800000, 84799999], let s : State := { tDev { tBound with anchor := some (0, 0) } with wall := w }
      quiet s = true ∧ (s.inst 0).runs = true ∧ (s.inst 0).catchUp = none ∧ (s.inst 0).anchor = some (0, 0)
        ∧ 0 + ((s.inst 0).released - 0) * (s.inst 0).framePeriod + (s.pf O.VID_PACE_SLACK).toNat % 65536 * 4800 = 84800000)
    ∧ (∀ n ∈ [0, 511], (tDev tBound).hostHit .pf (.pf (O.VID_PACE_CTRL + 32 * n)) = .open) ∧ (tDev tBound).mirrored = false
    ∧ (∀ i ∈ [{ tBound with expired := true, held := [⟨1, List.replicate 64 0, 0⟩] }, { tBound with expired := true }],
      (tDev i).mayRelease 0 = true ∧ i.catchUp = none ∧ i.replay = [] ∧ i.released = 1) := by decide +kernel

/-- A held write at the boundary, and none; a ring with room, and none where the share is nothing. -/
theorem witness_BoundaryWritesAndCheckpoint :
    (∀ i ∈ [{ tBound with ckptDone := false, hostHeld := [⟨O.CMP_COMMIT, 1⟩] }, { tBound with ckptDone := false }],
      i.atBoundary = true ∧ i.ckptDone = false ∧ i.replay = [] ∧ quiet (tDev i) = true)
    ∧ ({ tBound with ckptDone := false } : Inst).toLand = []
    ∧ (fitRing (tDev tBound).ckptShare [{ frame := 1, core := tBound.core }]).isSome = true
    ∧ ({ tDev tBound with image := { admitted := 1000000 } } : State).ckptShare = 0 ∧ fitRing 0 [{ frame := 1, core := tBound.core }] = none := by
  decide +kernel

/-- Class A has 280 lines: the last visible line of the mode, the first after it, and a latch with and without COMMIT. -/
theorem witness_StatePointsAndLatches :
    (∀ k ∈ [280 + 239, 280 + 240], let s := tDev { tEv (fun c => { c with nextLine := k }) with released := 3 }
      ((s.inst 0).turnOf .line).isSome = true ∧ ∃ v, s.linePoint 0 (k * classLineVc 0) = some v ∧ v.noCause ∧ v.clean)
    ∧ timingLines 0x3C0014 = 240
    ∧ ∀ b ∈ [false, true], let i := tEv fun c => { c with nextLtch := 0, commit := b }
      (i.turnOf .latch).isSome = true ∧ i.core.micro = [] ∧ quiet (tDev i) = true := by
  refine ⟨fun k hk => ⟨by revert k; decide +kernel, ?_⟩, by decide +kernel, by decide +kernel⟩
  obtain ⟨v, h, q⟩ := opt_of (x := (tDev { tEv (fun c => { c with nextLine := k }) with released := 3 }).linePoint 0 (k * classLineVc 0))
    (p := quiet) (by revert k; decide +kernel)
  exact ⟨v, h, calm_of q⟩

/-- A job for a free renderer; a line done before its deadline, at it, and after it. -/
def tLine (d : Option Nat) : LineJob := ⟨1, 0, 0x3C0014, [], d, 0⟩
theorem witness_LinesAreRendered :
    (let s : State := { tDev { tEv id with released := 3, jobs := [tLine none] } with
       image := { mode := 0, id := 1, groups := [0xF], admitted := 1, credits := [⟨5, 0, 0, 0, 0, 1⟩] } }
     quiet s = true ∧ s.rendActive 0 = true ∧ s.rendBusy 0 = false ∧ s.nextJob 0 = some (0, tLine none) ∧ s.rendCredit 0 = true ∧ s.mem.poolCe = [] ∧ s.mem.poolUe = [])
    ∧ ∀ d ∈ [none, some 9, some 10], let i := { tEv id with rendering := [⟨tLine d, 3, ⟨[], 0, 0, 0, 0, none, false⟩, 0, [], []⟩] }
      let s : State := { tDev i with wall := 10 }
      quiet s = true ∧ s.insts = [(0, i)] ∧ i.builds = [] ∧ i.core.micro = [] := by
  decide +kernel

/-! Witnesses of the statements about units, the stream, the monitor outputs and the ladder. -/

/-- A set that rotates, its member out of service under test; a blit engine; an audit core. -/
theorem witness_UnitTests :
    (let s := tDev (tEv id)
     quiet s = true ∧ s.boot.ready = true ∧ s.safety.test = none ∧ s.blitTurn = some 0 ∧ s.powered 0 = true ∧ s.eng.inTest.contains 0 = false
      ∧ s.eng.blit = [] ∧ (∀ c ∈ [0, 1], s.auditCores.contains c = true ∧ s.powered (coreDomain c) = true)
      ∧ ∀ g ∈ [0, 3], s.powered (9 + g) = true ∧ (s.setHealthy g).length = 5 ∧ s.safety.testing.getD g false = false)
    ∧ (let s : State := { tDev (tEv id) with insts := [], safety := { blitNext := 7 } }
       s.blitTurn = some 7 ∧ s.insts = [] ∧ s.unitGone 1 0 = false ∧ quiet s = true ∧ s.safety.test = none)
    ∧ (let s : State := { tDev (tEv id) with safety := { testing := [false, false, false, true] } }
       s.outOf 3 = some 19 ∧ s.powered 12 = true ∧ s.boot.ready = true ∧ s.safety.testing.getD 3 false = true ∧ quiet s = true ∧ s.safety.test = none) := by decide +kernel

/-- No test, a test of each kind queued, and one that runs. -/
theorem witness_RequestedTests :
    (let s := tDev (tEv id)
     quiet s = true ∧ s.hostHit .pf (.pf O.SAF_TEST_REQ) = .open ∧ s.safety.test = none ∧ (0x80000700 : Word).getLsbD 31 = true)
    ∧ (∀ t ∈ [(⟨1, 3, 1⟩ : TestSt), ⟨1, 0, 2⟩, ⟨0, 19, 1⟩, ⟨3, 65, 1⟩, ⟨3, 0, 1⟩, ⟨4, 31, 1⟩],
      let s : State := { tDev (tEv id) with safety := { test := some t } }
      quiet s = true ∧ s.safety.test = some t ∧ s.unitGone 1 t.index = false ∧ s.coreOk t.index = true ∧ s.unitPowered t.kind t.index = true)
    ∧ (let s : State := { tDev (tEv id) with regs := [(O.SAF_UNITS, 0x8000000)], safety := { test := some ⟨2, 7, 1⟩ } }
       quiet s = true ∧ s.unitGone 2 7 = true)
    ∧ (let s : State := { tDev (tEv id) with insts := [], safety := { test := some ⟨1, 3, 2⟩ } }
       quiet s = true ∧ s.insts = [] ∧ s.safety.test = some ⟨1, 3, 2⟩) := by decide +kernel

/-- The scrubber between passes and within one; and a core that serves a Playing instance. -/
theorem witness_RequestedTests_units :
    (tDev (tEv id)).pf O.POOL_SCRUB_STATUS = 0
    ∧ ({ tDev (tEv id) with regs := [(O.POOL_SCRUB_STATUS, 5)] } : State).pf O.POOL_SCRUB_STATUS = 5
    ∧ (let s : State := { tDev { tEv id with place := some 7 } with safety := { test := some ⟨3, 0, 1⟩ } }
       quiet s = true ∧ (s.insts.any fun e => e.2.servedBy == some 0) = true) := by decide +kernel

/-- A frame under construction: 4 lines, of which one block row may be encoded; or complete. -/
def tBuild (out : List (List Nat)) (rows : List (List Byte)) : FrameBuild := { frame := 0, timing := 0x010001, slot := 3, out, rows }
/-- The instance with a packet of 128 bytes, its rings on. -/
def tRings (p : List Packet) : Inst :=
  { tEv id with
    released := 3, packets := p
    vf := { enabled := true, mse := true, bme := true
            regs := (List.range 5).flatMap fun r =>
              [(O.HST_VF_RING_CTRL + 32 * r, 1), (O.HST_VF_RING_SIZE + 32 * r, BitVec.ofNat 32 ((ringRange r).1))] } }
/-- The bytes of a packet of frame 0 without lines. -/
def tBytes : List Byte := packetBytes 0 tInst.adm { frame := 0, timing := 0, slot := 3 } false 0

theorem witness_StreamEvents :
    (let i := { tEv (fun c => { c with nextLine := 280 }) with released := 3, packets := [⟨0, 0, 128, 0, none, false, false, true, []⟩] }
     quiet (tDev i) = true ∧ i.claimDue = some 1 ∧ 1 ∉ i.usedSlots ∧ ∀ x < 1, x ∈ i.usedSlots)
    ∧ (let s : State := { tDev { tEv id with builds := [tBuild [[], [], [], []] []] } with eng := { cmpQ := [⟨0, 0, 0, 3⟩] } }
       quiet s = true ∧ s.unitGone 1 3 = false ∧ s.testOn 1 3 = false ∧ s.nextRow 3 = some (⟨0, 0, 0, 3⟩, tBuild [[], [], [], []] []))
    ∧ (let b := tBuild [] [[]]
       let i := { tEv id with released := 3, builds := [b] }
       quiet (tDev i) = true ∧ (tDev i).packetReady 0 = some b ∧ (i.staleStep b (nxor b.instCrc 0xFFFFFFFF)).2 = false)
    ∧ (let p : Packet := ⟨0, 3, 128, 5, none, false, false, false, []⟩
       let i := tRings [p]
       let s := { tDev i with hbm := putBytes [] (i.slotAt 3) tBytes }
       quiet s = true ∧ tBytes.length = 128 ∧ s.chItems 0 = [⟨5, 0, false⟩] ∧ i.nextPacket = some p ∧ s.hbmToHost = true
        ∧ i.vf.streamRoom 128 = true ∧ i.whistleCheck p (getBytes s.hbm (i.slotAt 3) 128) = (false, false))
    ∧ (let i := { tEv id with whDue := [7] }
       quiet (tDev i) = true ∧ i.rung = .playing ∧ i.faultHeld = false ∧ i.claimDue = none)
    ∧ (∀ v ∈ [(tRings []).vf, {}], let i := { tRings [] with vf := { v with bypQ := [⟨1, 0, []⟩] } }
       let s := tDev i
       quiet s = true ∧ s.host.linkUp = true ∧ s.powered 14 = true ∧ s.isDraining 14 = false
        ∧ (s.chItems 0).head? = some ⟨1, 0, true⟩ ∧ (i.vf.ringRoom 4 = 0 ∨ 0 < i.vf.ringRoom 4))
    ∧ (tRings []).vf.ringRoom 4 ≠ 0 ∧ ({} : Vf).ringRoom 4 = 0
    ∧ (let s := tDev { tEv id with packets := [⟨0, 0, 64, 0, none, false, false, false, []⟩], vf := { bypQ := [⟨1, 0, []⟩] } }
       quiet s = true ∧ s.chHead 0 = some ⟨0, 0, false⟩ ∧ s.itemWaits ⟨0, 0, false⟩ = true)
    ∧ (let s : State := { tDev { tEv id with vf := { bypQ := [⟨1, 0, []⟩] } } with host := {} }
       quiet s = true ∧ s.host.linkUp = false) := by
  decide +kernel

/-- Output 1, enabled and linked, shows instance 0: a packet with a video section, and none. -/
def tMon (p : List Packet) (m : Monitor) : State :=
  { tDev { tEv id with packets := p } with
    regs := [(O.DPO_CTRL + 16, 0x80000000), (O.DPO_STATUS + 16, 0x40000000), (O.CLK_STATUS, 8)]
    hbm := putBytes [] (({ tEv id with packets := p } : Inst).slotAt 2 + 0x14) [1]
    mons := [{}, m], pins := { hpd := [false, true] } }
theorem witness_MonitorEvents :
    (let p : Packet := ⟨0, 2, 128, 0, none, false, false, true, []⟩
     let s := tMon [p] {}
     quiet s = true ∧ s.monReady 1 = true ∧ (s.inst 0).adm.state = 2 ∧ (s.mon 1).holds = none ∧ s.monSelect 0 = some p
      ∧ (s.inst 0).lastFault = false ∧ tb ((s.inst 0).reg O.STR_STATUS).toNat 0 = false ∧ s.chipFault = false
      ∧ s.safety.avClock = false ∧ s.pins.hpd.getD 1 false = true ∧ s.boot.ready = true ∧ s.boot.perst = false ∧ s.boot.powered = true ∧ s.mirrored = false ∧ s.pwr ≠ 4
      ∧ s.dpoUp 1 = true ∧ s.dpoOn 1 = true ∧ s.pins.hpd.getD 0 false = false)
    ∧ (let s := tMon [] { audio := [[]] }
       quiet s = true ∧ s.monReady 1 = true ∧ (s.mon 1).holds = none ∧ s.monSelect 0 = none ∧ (s.mon 1).audio = [[]] ∧ s.dpoOn 1 = true)
    ∧ (let s : State := { tDev (tEv id) with mons := [{}, { holds := some (0, 3), playing := true }], regs := [(O.DPO_CTRL + 16, 0x80000000), (O.CLK_STATUS, 8)] }
       quiet s = true ∧ s.monReady 1 = false ∧ (s.mon 1).holds = some (0, 3) ∧ s.mons.length = 2
        ∧ (s.mon 1).audio = [] ∧ (s.mon 1).playing = true ∧ s.dpoOn 1 = true ∧ s.safety.avClock = false
        ∧ (s.pf O.CLK_STATUS).getLsbD 3 = true) := by decide +kernel

theorem witness_BellEvents :
    (let s := tDev { tEv id with bell := { act := {}, next := some {} } }
     quiet s = true ∧ s.hostHit .pf (.pf O.CMP_BELL_COMMIT) = .open ∧ s.mirrored = false ∧ s.badOf .pool = ([], []) ∧ (s.inst 0).adm.state = 2 ∧ (s.inst 0).bell.next = some {}
      ∧ s.pfBits O.CMP_BELL_WIN_SEL 8 0 = 0 ∧ (∀ x ∈ [(0, 8), (0x2FFF, 1)], s.hostHit .pf (.pf (0x3A0000 + x.1)) = .open ∧ x.1 % x.2 = 0)
      ∧ s.bellPending 0 = false)
    ∧ (let s : State := { tDev (tEv id) with regs := [(O.CMP_BELL_STATUS, 2)] }
       quiet s = true ∧ s.bellPending 0 = true ∧ s.hostHit .pf (.pf 0x3A0000) = .open) := by decide +kernel
/-- The instance with a rung command, on a rung. -/
def tRung (r : Rung) (c : RungCmd) : Inst :=
  { tEv id with rung := r, running := some c, ring := [{ frame := 3, core := tCore }, { frame := 2, core := tCore }] }
theorem witness_RungMoves :
    (∀ x ∈ [(1, Rung.playing), (2, .playing), (3, .held), (3, .benched), (3, .parked), (3, .shelved), (4, .held), (4, .parked),
      (5, .held), (5, .benched), (6, .held), (6, .benched), (6, .parked), (7, .held), (7, .playing), (8, .shelved), (8, .held), (9, .shelved)],
      let s := tDev (tRung x.2 { op := x.1, back := 1 })
      quiet s = true ∧ s.rungRuns 0 x.1 = some { op := x.1, back := 1 } ∧ (s.inst 0).rung = x.2 ∧ (s.inst 0).atRest = true
        ∧ tidy s = true ∧ (s.placeFor 0).isSome = true ∧ (s.core 0).micro = [] ∧ s.workTurn 0 = true ∧ s.undoLeaf 0 1 = none
        ∧ (s.inst 0).ckptDone = true ∧ (s.inst 0).shelfOk = false ∧ s.pfTraffic = true ∧ (s.inst 0).jobs = [] ∧ (s.inst 0).rendering = []
        ∧ (s.inst 0).ring[0]? = some { frame := 3, core := tCore } ∧ (s.inst 0).ring[1]? = some { frame := 2, core := tCore })
    ∧ (let s : State := { tDev (tRung .held { op := 6 }) with mem := { ext := [(0, 13 + 255 * 2 ^ 80), (1, 13 + 255 * 2 ^ 80)] } }
       quiet s = true ∧ s.rungRuns 0 6 = some { op := 6 } ∧ s.pfTraffic = true ∧ s.workTurn 0 = true ∧ s.shelfOkExtents 0 = true) := by
  decide +kernel

/-- A shelf image of the instance: a header whose LENGTH ends it at its sections, and zeros up to the length of R456. -/
def tShelf : List Byte :=
  leBytes 4 0x464C4853 ++ leBytes 4 1 ++ leBytes 8 5 ++ [0, 1] ++ leBytes 2 4 ++ leBytes 2 1 ++ List.replicate 10 0 ++ leBytes 4 4096
    ++ List.replicate 24 0 ++ leBytes 4 0xD7B2F0BE ++ List.replicate 1839040 0
theorem tShelf_length : tShelf.length = 1839104 := by
  simp only [tShelf, List.length_append, List.length_replicate, leBytes, List.length_cons, List.length_nil]

/-- A shelved instance with its image, whose extents are free and whose are not. -/
def tShelved (ext : Map Nat) : State :=
  { tDev { tRung .shelved { op := 5 } with shelfOk := true } with mem := { ext } }
theorem witness_RungMoves_shelf :
    (∀ ext ∈ [[(0, 13 + 255 * 2 ^ 80), (1, 13 + 255 * 2 ^ 80)], []], let s := tShelved ext
      quiet s = true ∧ s.rungRuns 0 5 = some { op := 5 } ∧ s.pfTraffic = true ∧ s.workTurn 0 = true ∧ (s.inst 0).shelfOk = true
        ∧ s.shelfOkExtents 0 = !ext.isEmpty)
    ∧ (tShelved []).shelfLen 0 = tShelf.length ∧ (tShelved []).shelfFits 0 tShelf = true
    ∧ (tShelved []).shelfFits 0 (0 :: tShelf) = false := by
  refine ⟨by decide +kernel, by rw [tShelf_length]; decide +kernel, ?_, by decide +kernel⟩
  unfold State.shelfFits
  simp only [tShelf_length]
  decide +kernel

/-- A command that waits under the limit; entries of the CMD ring; an undo copy; an audit and one run again. -/
theorem witness_LadderEvents :
    (let c : RungCmd := { op := 1, queued := true, seq := 4 }
     let s := tDev (tRung .playing c)
     quiet s = true ∧ (s.inst 0).running = some c ∧ s.rungRunning < 16
      ∧ (∀ e ∈ s.insts, (match e.2.running with | some d => !d.queued || decide (4 ≤ d.seq) | none => true) = true))
    ∧ (let i := tRings []
       let i := { i with vf := (i.vf.setReg (O.HST_VF_DB + 4096) 1).setReg (O.HST_VF_DB + 8192) 0 }
       let s := tDev i
       quiet s = true ∧ 0 < i.vf.ringPending 1 ∧ i.running = none ∧ s.awake = true ∧ s.chipFault = false
        ∧ s.rungDecide 0 1 0 = none ∧ 0 < i.vf.ringRoom 2
        ∧ ∀ op ∈ [0, 1], let e := leBytes 32 op; field e 0 1 = op ∧ field e 1 1 < 32 ∧ field e 2 2 = 0 ∧ field e 8 24 = 0)
    ∧ (let i := { tEv id with ring := [{ frame := 3, core := tCore }, { frame := 2, core := tCore }] }
       let s := tDev i
       quiet s = true ∧ s.admitted 0 = true ∧ i.rung = .playing ∧ i.noUndo = false ∧ i.runs = true ∧ i.catchUp = none ∧ i.faultHeld = false
        ∧ (∀ x ∈ [(2, 63), (3, 255), (4, 63)], s.blockExists 0 x.1 x.2 = true
            ∧ (match s.blockCells 0 x.1 x.2 with
              | some l => (fitRing s.ckptShare ({ frame := 3, core := tCore, undo := [⟨x.1, x.2, l⟩] } :: [{ frame := 2, core := tCore }])).isSome
              | none => false) = true)
        ∧ s.auditCore 0 = some 0 ∧ s.auditAgain 0 8 = true ∧ s.auditTurn = some 0 ∧ i.ring[1]? = some { frame := 2, core := tCore }
        ∧ ({ frame := 2, core := tCore } : Ckpt).auditBig = false)
    ∧ (let i := { tEv id with ring := [{ frame := 3, core := tCore }], cut := true }
       quiet (tDev i) = true ∧ (tDev i).auditCore 0 = some 0 ∧ (tDev i).auditTurn = some 0 ∧ i.ring[1]? = none ∧ i.cut = true)
    ∧ (let k : Ckpt := { frame := 2, core := tCore, undo := List.replicate 4096 ⟨5, 0, []⟩ }
       let i := { tEv id with ring := [{ frame := 3, core := tCore }, k] }
       quiet (tDev i) = true ∧ (tDev i).auditCore 0 = some 0 ∧ (tDev i).auditTurn = some 0 ∧ (i.ring[1]?.map fun k => k.auditBig) = some true) := by
  decide +kernel

/-- An Extent Table command for the last entry, with what is staged; a valid host-target entry of one leaf. -/
def tExt (op stage0 : Nat) (i : Inst) : State :=
  { tDev i with
    regs := [(O.EXT_STAGE, BitVec.ofNat 32 stage0)]
    mem := { ext := [(0x1FFFF, 1)], extCmd := some (op * 2 ^ 28 + 0x1FFFF) } }
theorem witness_CartridgeEvents :
    (∀ op ∈ [1, 2, 3, 4, 5], let s := tExt op 1 (tEv id)
      quiet s = true ∧ s.extRuns op = some 0x1FFFF ∧ s.extRefusal 0x1FFFF s.extStaged = 0 ∧ s.writesBack 0x1FFFF s.extStaged = false
        ∧ s.pfTraffic = true ∧ s.workTurn s.mem.extSeq = true ∧ s.leafWaiters 0x1FFFF 0 = [] ∧ s.mem.leaves = [])
    ∧ (tExt 1 0x21 (tEv id)).extRefusal 0x1FFFF (tExt 1 0x21 (tEv id)).extStaged = 2
    ∧ ((List.range 256).filter fun l => (tExt 5 1 (tEv id)).leafMissing 0x1FFFF l) = [0]
    ∧ (let s := tExt 1 1 (tEv id)
       s.inUse 0 = true ∧ s.inUse 1 = false ∧ s.mirrored = false ∧ (∀ n ∈ [0, 1, 511], s.hostHit .pf (.pf (O.EXT_SPAN_FIRST + 8 * n)) = .open
        ∧ s.hostHit .pf (.pf (O.EXT_SPAN_COUNT + 8 * n)) = .open)
        ∧ (0x1FFFF : Word).toNat % 2 ^ 17 + (s.pf (O.EXT_SPAN_COUNT + 8)).toNat % 2 ^ 18 ≤ 131072) := by decide +kernel

/-- A leaf for which a thread waits. -/
theorem witness_CartridgeEvents_awaited :
    let s : State := { tWord (tWith id fun c => { c with regs := [(0x108, 0x17), (0x114, 0xFFFFF)] }) 0 with
      mem := { ext := [(0, 1)] }, regs := [(O.EXT_SPAN_COUNT, 1)] }
    quiet s = true ∧ s.leafWaiters 0 0 = [0] ∧ s.rungRuns 0 7 = none ∧ (s.inst 0).turn.map (fun x => x.2 == .thread 0) = some true
      ∧ (s.inst 0).faultHeld = false ∧ s.leafMissing 0 0 = true ∧ s.pfTraffic = true := by decide +kernel

/-- Ring 3 of the PF, enabled, with one descriptor to read. -/
def tMover : State :=
  { tDev { tEv id with rung := .shelved } with
    mem := { ext := [(0, 0x21100000B)] }
    regs := [(O.HST_MV_RING_CTRL + 96, 3), (O.HST_MV_TAIL + 96, 1), (O.HST_MV_RING_SIZE + 96, 4), (O.HST_PF_CQ_CTRL, 1), (O.HST_PF_CQ_SIZE, 6)] }
/-- A descriptor of 8 bytes: op, source space, destination space and addresses. -/
def tDesc (op src dst a b : Nat) : List Byte :=
  [BitVec.ofNat 8 op, 0, BitVec.ofNat 8 src, BitVec.ofNat 8 dst] ++ leBytes 4 8 ++ leBytes 8 a ++ leBytes 8 b ++ leBytes 8 1
theorem witness_MoverEvents :
    (quiet tMover = true ∧ tMover.moverReady 3 = true ∧ tMover.host.descs = [] ∧ tMover.mem.poolCe = [] ∧ tMover.mem.poolUe = []
      ∧ tMover.mem.hbmCe = [] ∧ tMover.mem.hbmUe = [] ∧ (tDesc 2 0 1 0 0).length = 32 ∧ field (tDesc 2 0 1 0 0) 0 1 = 2
      ∧ (∀ x ∈ [tDesc 1 0 1 0 0x10000000, tDesc 1 2 0 0x5FFFFF8 0, tDesc 1 1 0 0x211FFFFF8 0], field x 0 1 ≠ 2
        ∧ field x 4 4 ≠ 0 ∧ (let d : Desc := { ring := 3, desc := x }
           (if d.malformed then 1 else if tMover.moverDenied d then 2 else if tMover.moverDark d then 5 else 0) = 0))
      ∧ (∀ k < 8, tMover.hbmHidden (0x211FFFFF8 + k) = false)
      ∧ (∀ o ∈ [O.HST_MV_TAIL + 96, O.HST_MV_RING_CTRL + 96], tMover.hostHit .pf (.pf o) = .open) ∧ tMover.mirrored = false
      ∧ tMover.badOf .pool = ([], []) ∧ tMover.badOf .hbm = ([], []) ∧ tMover.mem.marched = [] ∧ 0 < tMover.cqRoom
      ∧ ∀ op ∈ [1, 2], let x := [BitVec.ofNat 8 op, 0, 0, 1] ++ leBytes 4 0 ++ leBytes 8 0 ++ leBytes 8 0 ++ leBytes 8 1
        x.length = 32 ∧ field x 0 1 = op ∧ field x 4 4 = 0 ∧ (let d : Desc := { ring := 3, desc := x }
          (if d.malformed then 1 else if tMover.moverDenied d then 2 else if tMover.moverDark d then 5 else 0) = 0))
    ∧ (∀ d ∈ [({ ring := 3, desc := tDesc 2 0 1 0 0 } : Desc), { ring := 3, desc := tDesc 1 0 0 0 0, data := [1] },
          { ring := 3, desc := tDesc 1 0 0 0 0, status := 3 }],
      let s := { tMover with host := { tMover.host with descs := [d] } }
      quiet s = true ∧ s.host.descs = [d] ∧ d.waits = false ∧ 0 < s.cqRoom)
    ∧ (let d : Desc := { ring := 3, desc := tDesc 1 0 0 0 0, status := 3 }
       let s := { tMover with host := { tMover.host with descs := [d] }, regs := [] }
       quiet s = true ∧ s.host.descs = [d] ∧ s.cqRoom = 0)
    ∧ (let s := tDev { tEv id with packets := [⟨0, 0, 64, 0, none, false, false, false, []⟩] }
       quiet s = true ∧ (s.chBlocked 0).isSome = true) := by decide +kernel

theorem witness_VfRingEvents :
    (let i := { tRings [] with vf := ((tRings []).vf.setReg O.HST_VF_DB 1).setReg (O.HST_VF_DB + 4096) 1 }
     let s := tDev i
     quiet s = true ∧ s.inputDue 0 = true ∧ s.cmdDue 0 = true ∧ i.released = 3 ∧ i.held = [] ∧ i.running = none
      ∧ (∀ f ∈ [2, 3], let e := leBytes 64 f; field e 12 4 = 0 ∧ field e 0 8 = f)
      ∧ s.mirrored = false ∧ ∀ r < 5, s.hostHit .vf (.bar2 0 (O.HST_VF_RING_CTRL + 32 * r)) = .open ∧ s.hostHit .pf (.pf 0) = .open
        ∧ s.hostHit .vf (.bar2 0 (O.HST_VF_DB + 4096 * r)) = .open)
    ∧ (let v := (tRings []).vf
       let grows := fun to' => (v.devPtr 2 + v.ringLen 2 - v.hostPtr 2 % v.ringLen 2) % v.ringLen 2
         < (v.devPtr 2 + v.ringLen 2 - to' % v.ringLen 2) % v.ringLen 2
       ¬ grows 0 ∧ grows 63 ∧ min ((0x3FFFFF : Word).toNat % 2 ^ 22) (v.ringLen 2 - 1) = 63)
    ∧ (let v : Vf := { (tRings []).vf.setReg O.HST_VF_IRQ_MOD 1 with unsig := 1, msix := [(12, 0)], msixOn := true }
       quiet (tDev { tEv id with vf := v }) = true ∧ 0 < v.unsig ∧ v.rbits O.HST_VF_IRQ_MOD 15 0 ≠ 0 ∧ v.enabled = true ∧ v.msixOn = true ∧ v.msixOff = false ∧ v.pba % 2 = 0
        ∧ v.bme = true ∧ (v.msix.get msixReset 12).getLsbD 0 = false) := by decide +kernel

theorem witness_FunctionEvents :
    (let s := tDev (tEv id)
     quiet s = true ∧ (s.inst 0).vf.enabled = true ∧ (s.inst 511).vf.enabled = false ∧ s.mem.leaves = [] ∧ s.host.linkUp = true ∧ s.pwr ≠ 4 ∧ s.boot.ready = true
      ∧ (∀ p ∈ [Path.pf, .vf], s.hostHit p (aimOf p (.win 0 0)) = .open) ∧ s.hostHit .pf (aimOf .pf (.pf 0x4000000)) = .unsupported
      ∧ s.hostHit .vf (aimOf .vf (.win 511 0)) = .unsupported
      ∧ s.boot.powered = true ∧ s.boot.perst = false ∧ s.boot.stopped = false ∧ tb s.pins.straps 2 = false)
    ∧ (let s : State := { tDev (tEv id) with boot := { perst := false } }
       quiet s = true ∧ s.host.linkUp = true ∧ s.pwr ≠ 4 ∧ s.boot.ready = false) := by decide +kernel

/-- The device in a power state, with nothing on its chip at work. -/
def tPwr (state domains gov : Nat) (p : PowerSt) : State :=
  { tDev (tEv id) with
    insts := [(0, { tEv id with rung := .shelved })], power := p
    regs := [(O.PWR_STATUS, BitVec.ofNat 32 (state * 2 ^ 29)), (O.PWR_DOMAINS, BitVec.ofNat 32 domains), (O.PWR_GOV_STATUS, BitVec.ofNat 32 gov)] }
theorem witness_PowerEvents :
    (∀ st ∈ [0, 1], let s := tPwr st 0x7FFF 0xFF {}
      quiet s = true ∧ s.hostHit .pf (.pf O.PWR_CTRL) = .open ∧ s.awake = true ∧ s.power.goal = none ∧ s.chipFault = false
        ∧ s.opBusy = false ∧ s.pwr = st ∧ s.power.draining = [] ∧ s.rampsDone = true ∧ s.powered 5 = true ∧ s.boot.ready = true ∧ s.idleOk = true
        ∧ ∀ e ∈ s.insts, e.2.rung = .shelved)
    ∧ (∀ st ∈ [2, 3], let s := tPwr st 0x401F 0xFF {}
      quiet s = true ∧ s.hostHit .pf (.pf O.PWR_CTRL) = .open ∧ s.pwr = st ∧ s.power.goal = none ∧ s.powered 5 = false
        ∧ s.ramping 5 = false ∧ s.chipFault = false ∧ s.host.linkUp = true)
    ∧ (let s : State := { tPwr 3 0x401F 0xFF {} with host := { linkUp := true, l12 := true } }
       quiet s = true ∧ s.pwr = 3 ∧ s.power.goal = none ∧ s.boot.ready = true ∧ s.host.linkUp = true ∧ s.host.l12 = true)
    ∧ (let s : State := { tDev (tEv id) with regs := [(O.SAF_STATUS, 0x80000000)] }
       quiet s = true ∧ s.chipFault = true ∧ s.hostHit .pf (.pf O.PWR_CTRL) = .open)
    ∧ (let s := tDev { tEv id with rung := .held }
       quiet s = true ∧ s.hostHit .pf (.pf O.PWR_CTRL) = .open ∧ s.power.goal = none ∧ s.chipFault = false ∧ s.opBusy = false
        ∧ ∃ e ∈ s.insts, e.2.adm.state = 2 ∧ e.2.rung = .held)
    ∧ (let s : State := { tDev (tEv id) with regs := [(O.PWR_STATUS, 0x20000000)] }
       quiet s = true ∧ s.pwr = 1 ∧ s.idleOk = false)
    ∧ (let s := tPwr 4 0x1F 0xFF {}
       quiet s = true ∧ s.pwr = 4 ∧ s.power.goal = none ∧ s.boot.ready = true)
    ∧ (let s := tPwr 2 0x1F 0xFF { goal := some 1, queue := [5, 4] }
       quiet s = true ∧ s.pfBits O.PWR_GOV_STATUS 3 0 = 0xF ∧ (s.power.queue.find? fun x => decide (x < 5)).or s.power.queue.head? = some 4)
    := by decide +kernel

theorem witness_PowerEvents_ramps :
    (∀ p ∈ [({ goal := some 2 } : PowerSt), { goal := some 3 }, { goal := some 1, queue := [4] }],
       quiet (tPwr 2 0x3FFF 0xFE p) = true ∧ (tPwr 2 0x3FFF 0xFE p).pfBits O.PWR_GOV_STATUS 3 0 = 14
        ∧ (p.goal = some 2 ∨ p.goal = some 3 ∨ (p.goal = some 1 ∧ p.queue ≠ [])))
    ∧ (let s := tPwr 2 0x3FFF 0xFE { goal := some 1 }
       quiet s = true ∧ s.pfBits O.PWR_GOV_STATUS 3 0 = 14 ∧ s.power.goal = some 1 ∧ s.power.queue = [] ∧ s.power.draining = []
        ∧ s.pfBits O.PWR_GOV_STATUS 7 4 = 0xF ∧ s.power.mirrorOps = [])
    ∧ (∀ x ∈ [(0, some 2), (0, some 3), (3, none)], let s := tPwr x.1 0x7FFF 0xFF { goal := x.2, draining := [13] }
       quiet s = true ∧ s.isDraining 13 = true ∧ s.host.descs = [] ∧ s.power.goal = x.2 ∧ s.mirrored = true)
    ∧ (let s := tDev (tEv id)
       (∀ n ∈ [0, 511], s.hostHit .pf (.pf (O.CDC_INST_MODE + 4 * n)) = .open) ∧ s.inUse 0 = true ∧ s.inUse 511 = false
        ∧ s.mirrored = false ∧ s.boot.ready = true
        ∧ 700 ≤ s.pfBits O.CLK_STATUS 25 16 + 10 ∧ s.pfBits O.CLK_STATUS 25 16 ≤ 760) := by decide +kernel

theorem witness_MonitorsAndChipFaults :
    (let s := tDev (tEv id)
     quiet s = true ∧ s.watching = true ∧ s.safety.halted = [] ∧ s.safety.clockBad.get zeroAt 1 = 0
      ∧ s.safety.clockBad.get zeroAt 0 < 2 ∧ 100 * 4703 < 98 * (if s.image.mode = 2 then 3200 else 4800)
      ∧ ¬ (100 * 4800 < 98 * (if s.image.mode = 2 then 3200 else 4800) ∨ 102 * (if s.image.mode = 2 then 3200 else 4800) < 100 * 4800)
      ∧ s.safety.voltBad.get zeroAt 1 < 3
      ∧ (759999 < 760000 ∧ ¬ (760000 < 760000 ∨ 840000 < 760000)) ∧ s.boot.powered = true ∧ s.boot.perst = false ∧ s.boot.ready = true
      ∧ s.hostHit .pf (.pf O.SAF_FORCE) = .open ∧ s.admitted 0 = true ∧ (s.inst 0).faultHeld = false ∧ s.coreOk 65 = true
      ∧ (0x5AFE0400 : Word).toNat / 65536 = 0x5AFE ∧ (0x5AFE0400 : Word).getLsbD 9 = false ∧ (0x5AFE0400 : Word).getLsbD 10 = true
      ∧ (0x5AFE0200 : Word).toNat / 65536 = 0x5AFE ∧ (0x5AFE0200 : Word).getLsbD 9 = true ∧ (0x5AFE0200 : Word).toNat % 512 = 0)
    ∧ (let s : State := { tDev (tEv id) with safety := { clockBad := [(1, 1)], voltBad := [(1, 3), (2, 3)] }, vault := { wipeEnd := true }
                                             regs := [(O.HBM_STATUS, 0x80000000)], boot := { perst := false } }
       quiet s = true ∧ s.watching = true ∧ s.safety.clockBad.get zeroAt 1 = 1 ∧ s.safety.voltBad.get zeroAt 1 = 3
        ∧ s.safety.voltBad.get zeroAt 2 = 3 ∧ s.vault.wipeEnd = true ∧ (s.pf O.HBM_STATUS).getLsbD 31 = true ∧ s.boot.ready = false)
    ∧ (let i := { tEv id with place := some 8 }
       quiet (tDev i) = true ∧ (tDev i).coreOk 1 = true ∧ (tDev i).insts = [(0, i)] ∧ i.servedBy = some 1 ∧ i.faultHeld = false) := by
  decide +kernel

/-- A word of instance 0's VRAM without an error, and with one corrupted bit; the instance Playing and Held. -/
def tEcc (r : Rung) (m : MemSt) : State :=
  { tDev { tEv id with rung := r } with regs := [(O.HBM_STATUS, 0x80000000)], mem := m }
theorem witness_MemoryChecks :
    (∀ r ∈ [Rung.playing, .held], ∀ m ∈ [({} : MemSt), { poolCe := [0] }], let s := tEcc r m
      quiet s = true ∧ s.boot.ready = true ∧ (∀ d < 5, s.powered d = true) ∧ s.mem.poolUe = [] ∧ (s.pf O.HBM_STATUS).getLsbD 31 = true
        ∧ s.powered 13 = true ∧ s.mem.hbmUe = [] ∧ s.pfBits O.POOL_SCRUB_STATUS 12 0 = 0 ∧ s.scrubGap = true ∧ s.mirrored = false ∧ s.hostHit .pf (.pf O.POOL_ECC_CTRL) = .open
        ∧ s.pfBits O.POOL_INJ_ADDR 26 3 = 0 ∧ 0 ∉ s.mem.poolUe ∧ s.poolOwner 0 = some 0 ∧ (s.inst 0).rung = r) := by decide +kernel

/-- The last pin, of the host and unlocked; locked; and of the management processor, a lock sequence under way. -/
def tPin (cfg locked : Nat) (p : PinSt) : State :=
  { tDev (tEv id) with regs := [(O.GPIO_LOCKED + 4, BitVec.ofNat 32 locked), (O.GPIO_CFG + 188, BitVec.ofNat 32 cfg)], pins := p }
theorem witness_GpioEvents :
    (∀ x ∈ [(0x30000, 0, 0), (0x30000, 0x8000, 1), (0x40030000, 0, 2)],
      let s := tPin x.1 x.2.1 { hostSeq := x.2.2, mgtSeq := x.2.2 }
      quiet s = true ∧ s.mirrored = false ∧ s.boot.powered = true ∧ s.boot.perst = false
        ∧ (∀ o ∈ [O.GPIO_CFG + 188, O.GPIO_TGL + 4, O.GPIO_LOCK_KEY, O.GPIO_LOCKED + 4], s.hostHit .pf (.pf o) = .open)
        ∧ s.lockSeq .host = x.2.2 ∧ (s.pf (O.GPIO_CFG + 188)).toNat / 2 ^ 30 = (if x.2.2 = 2 then 1 else 0)
        ∧ (s.pf (O.GPIO_LOCKED + 4)).getLsbD 15 = (x.2.2 == 1) ∧ s.pinDrive 47 = none ∧ tb s.pins.sampled 47 = !false ∧ s.safety.halted = [])
    ∧ funcAllowed (agentCode .host) 10 = true ∧ funcAllowed (agentCode .host) 8 = false := by decide +kernel

/-- A pin whose crossing is idle, or carries no, one, 14 or 15 accumulated counts; with and without the accumulator. -/
def tCross (x : Option Nat) (mode : Word) : State :=
  { tDev (tEv id) with regs := [(O.CDC_MODE, mode), (O.GPIO_CFG + 188, 0x30000)], pins := { cross := (x.map fun k => (47, k)).toList } }
theorem witness_GpioEvents_crossing : ∀ x ∈ [none, some 0, some 1, some 14, some 15],
    quiet (tCross x 0) = true ∧ (tCross x 0).boot.powered = true ∧ (tCross x 0).pinDrive 47 = none ∧ tb (tCross x 0).pins.sampled 47 = true
      ∧ ((tCross x 0).pins.cross.find? fun e => e.1 == 47).map (fun e => e.2) = x
      ∧ (((tCross x 0).pf (O.GPIO_CFG + 188)).toNat / 2 ^ 16 % 4 = 3) ∧ (tCross x 0).pf O.CDC_MODE = 0 ∧ (tCross x 1).pf O.CDC_MODE = 1 := by
  decide +kernel

theorem witness_JtagInstructions :
    (let s := tDev (tEv id)
     quiet s = true ∧ s.boot.powered = true ∧ s.jtagDrives = true)
    ∧ (let s : State := { tDev (tEv id) with fuses := { lifecycle := 2 } }
       quiet s = true ∧ s.boot.powered = true ∧ s.jtagDrives = false) := by decide +kernel

/-- Unpowered; in reset; ready; and booting, with and without the test strap. -/
theorem witness_ResetsAndBoot :
    (∀ b ∈ [({ powered := false } : BootSt), {}, { perst := false, ready := true }, { perst := false, booting := true }],
      ∀ straps ∈ [0, 4], let s : State := { tDev (tEv id) with insts := [], boot := b, pins := { straps } }
      quiet s = true ∧ s.host.linkUp = true ∧ tb s.pins.straps 2 = (straps == 4) ∧ s.fuses.commits = [] ∧ s.safety.tamperNow = [false, false]
        ∧ b.recovery = false) := by decide +kernel

/-- Operation `op` on slot 7, with a sealed default in slot `k`. -/
def tOp (op k arm : Nat) (x : Slot) : State :=
  { tDev (tEv id) with
    op := some { op, slot := 7, env := {} }, regs := [(O.MGT_FUSE_ARM, BitVec.ofNat 32 arm)], fuses := { commits := [⟨k, 1, []⟩] }
    mram := { slots := List.replicate 7 {} ++ [x] } }
theorem witness_SerferOperations :
    (∀ op ∈ [1, 2, 3, 4, 5], ∀ k ∈ [0, 7], ∀ v ∈ [false, true], let s := tOp op k 0xF ⟨[0], v, 1⟩
      quiet s = true ∧ s.opRuns op = some { op, slot := 7, env := {} } ∧ s.pfTraffic = true ∧ s.loadFree = true ∧ (s.slotAt 7).valid = v
        ∧ 7 < s.mram.slots.length ∧ s.isSealed 7 = (k == 7) ∧ s.pfBits O.MGT_FUSE_ARM 3 0 ≠ 0 ∧ s.fuses.commits.length < 32
        ∧ s.hostHit .pf (.pf O.MGT_FUSE_ARM) = .open)
    ∧ checkImage [] = 0x20 ∧ (tOp 4 0 0 ⟨[0], true, 1⟩).pfBits O.MGT_FUSE_ARM 3 0 = 0 := by decide +kernel

/-- Operation `op` on slot 7 within a phase, an image staged, fuse requests still to handle. -/
def tPhase (op phase burn arm : Nat) (burns : List (Nat × Nat × Bool)) (b : List Byte) (n : Nat) : State :=
  { tDev (tEv id) with
    op := some { op, slot := 7, env := {}, phase, burns, burn }, regs := [(O.MGT_FUSE_ARM, BitVec.ofNat 32 arm)]
    fuses := { commits := List.replicate n ⟨0, 1, []⟩ }, mram := { slots := List.replicate 7 {} ++ [⟨b, true, 1⟩] }, vault := { staging := b } }
/-- The operation stands in the phase. -/
def stands (op phase burn arm : Nat) (burns : List (Nat × Nat × Bool)) (b : List Byte) (n : Nat) : Bool :=
  let s := tPhase op phase burn arm burns b n
  quiet s && s.opRuns op == some { op, slot := 7, env := {}, phase, burns, burn } && s.pfTraffic && s.workTurn 0 && s.loadFree && s.planFree
    && s.isSealed 7 == false && s.pfBits O.MGT_FUSE_ARM 3 0 == arm

/-- A bad image in phases 2 and 3, a request that is refused, one that burns, none; a full commit store, and no arming. -/
theorem witness_SerferOperations_phases :
    (∀ op ∈ [1, 2, 3, 4], (∀ k ∈ [2, 3], stands op k 0 0 [] [] 0 = true))
    ∧ (∀ op ∈ [1, 2], (∀ k ∈ [4, 5, 6, 7], stands op k 0 0 [] [] 0 = true) ∧ stands op 5 0 0 [(3, 1, true)] [] 0 = true
      ∧ ∀ k ∈ [0, 1, 2], stands op 5 k 1 [(3, 1, true)] [] 0 = true)
    ∧ requestCause {} 0 [] (3, 1, true) = 1 ∧ requestCause {} 1 [] (3, 1, true) = 0
    ∧ stands 4 3 0 0 [] [] 0 = true ∧ stands 4 3 0 1 [] [] 32 = true ∧ stands 4 3 0 1 [] [] 31 = true
    ∧ (∀ k ∈ [1, 2], stands 4 5 k 1 [] [] 0 = true) ∧ checkKey {} [] = 0x32 := by decide +kernel

/-- A mailbox command with its four arguments, copy A booted. -/
def tMbx (l : List Nat) (recovery : Bool) : State :=
  { tDev (tEv id) with boot := { perst := false, ready := true, recovery, mbx := some l }, regs := [(O.MGT_BOOT_STATUS, 0x70000000)] }
theorem witness_MailboxCommands :
    (∀ op ∈ [1, 2, 3], ∀ k ∈ [0, 1, 2], ∀ len ∈ [0, 0x200000, 0x200001], let s := tMbx [op, 8, 0, k, len] false
      quiet s = true ∧ s.mbxRuns op = some [8, 0, k, len] ∧ s.fwProtected k = (k == 0) ∧ s.pfTraffic = true ∧ s.vault.wipeEnd = false)
    ∧ fwValid ([] : List Byte) = false := by decide +kernel

theorem witness_RegisterAccesses :
    quiet (tDev (tEv id)) = true ∧ (tDev (tEv id)).mirrored = false
    ∧ (∀ o ∈ [O.MGT_MBX_ARG, O.MGT_MBX_ARG + 12, O.HST_WD_STATUS, O.HST_IDENT, O.MGT_CLAMP_COUNT, 0, 0x37FFFF, 2],
      (tDev (tEv id)).hostHit .pf (.pf o) = .open)
    ∧ (∀ o ∈ [O.MGT_MBX_ARG, O.BTIM_CTRL], (findReg (if o = O.BTIM_CTRL then windowRegs else pfRegs) o).isSome = true)
    ∧ (findReg pfRegs (O.MGT_MBX_ARG + 12)).map (fun e => (e.1.off, e.2)) = some (O.MGT_MBX_ARG, 3)
    ∧ (findReg vfRegs O.HST_VF_IRQ_MOD).map (fun e => e.1.name) = some "HST_VF_IRQ_MOD"
    ∧ (∀ o ∈ [O.HST_VF_IRQ_MOD, 0x10004, 0x1FFFC], (tDev (tEv id)).hostHit .vf (.bar2 0 o) = .open)
    ∧ (tDev (tEv id)).hostHit (.mgt 0) (.pf O.GPIO_CFG) = .open
    ∧ ((tDev (tEv id)).inst 0).vf.enabled = true ∧ (tDev (tEv id)).pwr ≠ 4 := by decide +kernel

theorem witness_RegisterAccesses_plain : ∀ r : RegSpec, r.off = O.MGT_MBX_ARG →
    PlainReg r O.MGT_MBX_ARG ∧ PlainReg r (O.MGT_MBX_ARG + 12) := by
  intro r h
  unfold PlainReg
  rw [h]
  decide +kernel

/-- In Retain and in Doze, and while Retain is entered: a write that the mirror holds, and none that wakes. -/
theorem witness_RegisterAccesses_mirror : ∀ x ∈ [(2, none), (3, none), (0, some 2)], let s := tPwr x.1 0x401F 0xFF { goal := x.2 }
    quiet s = true ∧ s.mirrored = true ∧ mirrorHolds .pf (.pf 0) = true ∧ mirrorHolds .vf (.win 0 O.BLW_CMD) = true
      ∧ s.hostHit .pf (.pf 0) = .open ∧ s.hostHit .vf (.win 0 O.BLW_CMD) = .open ∧ malformed .pf (.pf 0) 4 = false
      ∧ malformed .vf (.win 0 O.BLW_CMD) 8 = false ∧ s.wakes (.pf 0) 4 0xFFFFFFFF = false ∧ s.wakes (.win 0 O.BLW_CMD) 4 0xFFFFFFF = false
      ∧ s.wakes (.win 0 O.BLW_CMD) 8 0xFFFFFFFF = false := by decide +kernel

/-- A command that waits, none, and a safe state in which a step answers. -/
theorem witness_EveryStepKeepsSafety : State.reset.safe ∧ ∃ t, step State.reset = .next t ∧ State.reset.pending = [] :=
  ⟨⟨⟨rfl, fun _ => rfl⟩, show (_ : Nat) = _ by decide +kernel⟩, _, rfl, rfl⟩
/-- The state after reset has an empty queue. -/
theorem witness_EmptyQueueCountsTime : State.reset.pending = [] := rfl

/-! An image that loads: signed with the private key 1 and the nonce 1, by a program of its own over the published standards. -/

/-- The s of its signature. -/
def tSig : Nat := 0x13b7ac98a20fe57f3a3ed79b71c52f83eb5654103bf4743989aa038bc852df2223f4fd10fdd5bb790574d9d570a72bd6
/-- PARTITION, GROUPS of one group, and empty INSTANCES and CREDITS (R44 to R48). -/
def tBody : List Byte :=
  let e := fun (ty off len : Nat) => leBytes 2 ty ++ leBytes 2 1 ++ leBytes 4 off ++ leBytes 4 len ++ leBytes 4 0
  e 0x8001 64 32 ++ e 0x8002 96 4 ++ e 0x8003 104 0 ++ e 0x8004 104 0 ++ leBytes 32 0x100000100 ++ leBytes 8 15
/-- The header up to the signature (R42). -/
def tHead : List Byte :=
  leBytes 4 0x52465253 ++ leBytes 2 1 ++ leBytes 2 0x200 ++ leBytes 4 104 ++ leBytes 2 0x8512 ++ leBytes 2 3 ++ leBytes 8 1
    ++ leBytes 2 0xF00 ++ leBytes 2 4 ++ leBytes 4 0 ++ sha384 tBody ++ beBytes 48 g384.1 ++ beBytes 48 g384.2
/-- The image. -/
def tImage : List Byte := tHead ++ beBytes 48 g384.1 ++ beBytes 48 tSig ++ List.replicate 240 0 ++ tBody
/-- Fuses of lifecycle 1 that hold the digest of its key. -/
def tFuses : Fuses := { lifecycle := 1, keys := [sha384 (imgPub tImage)] }

/-- SHA-384 of "abc" (FIPS 180-4, the example of its annex). -/
theorem test_sha384 : beNat (sha384 [0x61, 0x62, 0x63])
    = 0xCB00753F45A35E8BB5A03D699AC65007272C32AB0EDED1631A8B605A43FF5BED8086072BA1E7CC2358BAECA134C825A7 := by decide +kernel
theorem test_image_signed : imgSigned tImage = true := by
  unfold imgSigned ecdsaVerify
  rw [ecMul_digits, ecAdd_digits]
  decide +kernel
/-- One bit of the body changed: HASH does not fit (R41, R55). -/
theorem test_image_hash : checkImage (tImage.set 600 1) = 0x30 := by decide +kernel

/-- The image with 65 Chanter credits of a chip engine at one queue of 64 entries. -/
def tOver : List Byte := (tImage.set 8 112).set 568 8 ++ leBytes 2 0x5000 ++ [0, 0] ++ leBytes 2 0 ++ leBytes 2 65

/-- The image is checked without a finding, and has no fuse requests; one whose credits do not fit; and it stands staged in each phase that
it passes, with the fuses that hold its key. -/
theorem witness_SerferOperations_loads :
    checkImage tImage = 0 ∧ checkKey tFuses tImage = 0 ∧ checkCredits tImage = 0 ∧ imgRequests tImage = [] ∧ checkCredits tOver = 0x40
    ∧ (∀ op ∈ [1, 2, 3, 4], ∀ k ∈ [2, 3, 4, 7],
      let s : State := { tPhase op k 0 1 [] tImage 0 with fuses := tFuses }
      quiet s = true ∧ s.opRuns op = some { op, slot := 7, env := {}, phase := k } ∧ s.loadFree = true ∧ s.planFree = true)
    ∧ tImage.take 616 = tImage := by
  refine ⟨by decide +kernel, ?_, by decide +kernel, by decide +kernel, by decide +kernel, by decide +kernel, by decide +kernel⟩
  unfold checkKey
  rw [test_image_signed]
  decide +kernel

end Sys2Proof.Tests
end

namespace Sys2Proof.Proofs
open Sys2Proof.Machine Sys2Proof.Laws

/-! PROOFS of the family of 00_scope.md: what a host access of a register leaves (R3 to R9, R13), and the state after reset.

How a command of the host ends: where no cause was detected, with what it did to registers and instances, and its answer. -/

/-- The end of a command that detected no cause. -/
theorem nextWith_fin {s : State} {P : State → Prop} (q : s.noCause) (h : P s.icuLevels) : NextWith (fin s) P :=
  ⟨_, fin_noCause q, h⟩

/-- Detected causes are in the safety block and in the instances alone. -/
theorem noCause_congr {s t : State} (q : s.noCause) (hs : t.safety = s.safety) (hi : t.insts = s.insts) : t.noCause :=
  ⟨by rw [hs]; exact q.1, fun n => by rw [inst_congr hi]; exact q.2 n⟩

/-- An instance replaced by one without a cause. -/
theorem noCause_setInst {s : State} (q : s.noCause) {n : Nat} {i : Inst} (h : i.found = []) : (s.setInst n i).noCause := by
  refine ⟨q.1, fun m => ?_⟩
  by_cases hm : m = n
  · rw [hm, inst_setInst_same]; exact h
  · rw [inst_setInst_other s i hm]; exact q.2 m

/-- Noting an answer changes no cause. -/
theorem noCause_answered {s : State} (q : s.noCause) (a : Tlp) : (s.answered a).noCause := noCause_congr q rfl rfl

@[simp] theorem icuLevels_pf (s : State) (o : Nat) : s.icuLevels.pf o = s.pf o := pf_congr (icuLevels_regs s) o

@[simp] theorem icuLevels_l12 (s : State) : s.icuLevels.host.l12 = s.host.l12 := by
  obtain ⟨_, _, _, h⟩ := icuLevels_spec s; rw [h]

/-- A command that answers the host and replaces instance n changes nothing else. -/
theorem onlyInstance_setInst (s : State) (n : Nat) (i : Inst) (a : Tlp) : OnlyInstance n s ((s.setInst n i).answered a).icuLevels := by
  refine ⟨?_, fun m hm => ?_⟩
  · obtain ⟨p, w, x, h⟩ := icuLevels_spec ((s.setInst n i).answered a)
    exact ⟨_, p, w, x, by rw [h]; rfl⟩
  · exact (icuLevels_inst _ m).trans (inst_setInst_other s i hm)

/-- The outcome of a command that answers the host and replaces instance n by one without a cause. -/
theorem nextWith_setInst {s : State} (q : s.noCause) {n : Nat} {i : Inst} (h : i.found = []) (a : Tlp) :
    NextWith (fin ((s.setInst n i).answered a)) fun u => OnlyInstance n s u ∧ u.answer = some a ∧ u.inst n = i :=
  nextWith_fin (noCause_answered (noCause_setInst q h) a)
    ⟨onlyInstance_setInst s n i a, icuLevels_answer _, (icuLevels_inst _ n).trans (inst_setInst_same s n i)⟩

/-- A test of a range that fails. -/
theorem inRange_false {a b o : Nat} (h : ¬ (a ≤ o ∧ o < b)) : (decide (a ≤ o) && decide (o < b)) = false := by simpa using h

/-! How an access of the host reaches a register (R3, R13, R466, R505). -/

/-- A write that reaches the register itself. -/
theorem hostWrite_direct {s : State} {p : Path} {a : RegAddr} (d : s.Direct p a) (width v : Nat) (f : State → State) :
    s.hostWrite p a width v f = f (s.answered .done) := by
  obtain ⟨ho, hm⟩ := d
  have h : ((s.answered .done).mirrored && mirrorHolds p a) = false := by
    rw [Bool.and_eq_false_imp]; exact hm
  unfold State.hostWrite
  simp only [ho, h, Bool.not_false, if_true]

/-- A read that reaches the register itself. -/
theorem hostRead_direct {s : State} {p : Path} {a : RegAddr} (d : s.Direct p a) (width : Nat) (view : State → State)
    (f : State → Nat × State) : s.hostRead p a width view f = (f s).2.answered (.data (f s).1) := by
  obtain ⟨ho, hm⟩ := d
  have h : (s.mirrored && mirrorHolds p a) = false := by
    rw [Bool.and_eq_false_imp]; exact hm
  unfold State.hostRead
  simp only [ho, h, Bool.not_false, if_true]

/-- A write that meets the mirror and wakes nothing waits there. -/
theorem hostWrite_mirror {s : State} {p : Path} {a : RegAddr} {width v : Nat} (ho : s.hostHit p a = .open) (hm : s.mirrored = true)
    (hc : mirrorHolds p a = true) (hw : s.wakes a width v = false) (f : State → State) :
    s.hostWrite p a width v f = (s.answered .done).mirrorNote (.write p a width v) := by
  have h : ((s.answered .done).mirrored && mirrorHolds p a) = true := by rw [hc, Bool.and_true]; exact hm
  have w : (s.answered .done).wakes a width v = false := hw
  unfold State.hostWrite
  simp only [ho, h, w, Bool.not_true, Bool.false_eq_true, if_false]

/-- Every register of a window is reached as its first one is. -/
theorem direct_of_reaches {s : State} {p : Path} {n : Nat} (h : HostReaches s p n) (off : Nat) : s.Direct p (.win n off) := by
  obtain ⟨hp, d, _⟩ := h
  rcases hp with rfl | rfl <;> exact d

theorem host_of_reaches {s : State} {p : Path} {n : Nat} (h : HostReaches s p n) : p = .pf ∨ p = .vf := h.1
theorem admitted_of_reaches {s : State} {p : Path} {n : Nat} (h : HostReaches s p n) : (s.inst n).adm.state = 2 := h.2.2

/-- A word does not cross a 4 KiB boundary. -/
theorem word_in_page {off : Nat} (h : off % 4 = 0) : off % 4096 + 4 ≤ 4096 := by omega

/-- A request within a 4 KiB page is well formed (R489). -/
theorem malformed_pf {off width : Nat} (h : off % 4096 + width ≤ 4096) : malformed .pf (.pf off) width = false :=
  decide_eq_false (by omega)
theorem malformed_bar2 {off width : Nat} (h : off % 4096 + width ≤ 4096) (n : Nat) : malformed .vf (.bar2 n off) width = false :=
  decide_eq_false (by omega)
theorem malformed_win {off width : Nat} (h : off % 4096 + width ≤ 4096) (p : Path) (n : Nat) :
    malformed p (.win n off) width = false := by
  cases p with
  | pf => exact decide_eq_false (by omega)
  | vf => exact decide_eq_false (by omega)
  | mgt k => rfl
  | prog t => rfl

/-- Below the windows an offset of PF BAR0 names a register of the PF. -/
theorem aimOf_pf {off : Nat} (h : off < 0x2000000) : aimOf .pf (.pf off) = .pf off := by
  have : ¬ 0x2000000 ≤ off := by omega
  unfold aimOf pfTarget
  simp [this]

/-- The window of an instance is aimed at as it stands. -/
theorem aimOf_win (p : Path) (n off : Nat) : aimOf p (.win n off) = .win n off := by cases p <;> rfl

/-- A request of the PF to its BAR0 below the windows is a host access of that offset. -/
theorem accessWrite_pf {off width : Nat} (h : off < 0x2000000) (hw : off % 4096 + width ≤ 4096) (s : State) (v : Nat) :
    s.accessWrite .pf (.pf off) width v = s.hostWrite .pf (.pf off) width v fun s => s.pfAccessWrite off width v := by
  unfold State.accessWrite
  simp only [aimOf_pf h, malformed_pf hw, Bool.false_eq_true, if_false]

theorem accessRead_pf {off width : Nat} (h : off < 0x2000000) (hw : off % 4096 + width ≤ 4096) (s : State) :
    s.accessRead .pf (.pf off) width = s.hostRead .pf (.pf off) width State.mirrorView fun s => s.pfMirrorRead off width := by
  unfold State.accessRead
  simp only [aimOf_pf h, malformed_pf hw, Bool.false_eq_true, if_false]

/-- An access of one word of a window is the access of that register, by any path. -/
theorem accessWrite_win {off : Nat} (h : off % 4 = 0) (s : State) (p : Path) (n v : Nat) :
    s.accessWrite p (.win n off) 4 v = s.winRow p n off (BitVec.ofNat 32 v) := by
  unfold State.accessWrite
  simp only [aimOf_win, malformed_win (word_in_page h) p n, Bool.false_eq_true, if_false, h]
  cases p <;> rfl

theorem accessRead_win {off : Nat} (h : off % 4 = 0) (s : State) (p : Path) (n : Nat) :
    s.accessRead p (.win n off) 4 = s.winReadRow p n off := by
  unfold State.accessRead
  simp only [aimOf_win, malformed_win (word_in_page h) p n, Bool.false_eq_true, if_false, h]
  cases p <;> rfl

/-- An access of one word of a VF to its BAR2 is a host access of that offset. -/
theorem accessWrite_bar2 {off : Nat} (h : off % 4 = 0) (s : State) (n v : Nat) :
    s.accessWrite .vf (.bar2 n off) 4 v = s.hostWrite .vf (.bar2 n off) 4 v fun s => s.vfAccessWrite n off 4 v := by
  unfold State.accessWrite
  simp only [show aimOf .vf (.bar2 n off) = .bar2 n off from rfl, malformed_bar2 (word_in_page h) n,
    Bool.false_eq_true, if_false]

theorem accessRead_bar2 {off : Nat} (h : off % 4 = 0) (s : State) (n : Nat) :
    s.accessRead .vf (.bar2 n off) 4 = s.hostRead .vf (.bar2 n off) 4 State.mirrorView fun s => s.vfAccessRead n off 4 := by
  unfold State.accessRead
  simp only [show aimOf .vf (.bar2 n off) = .bar2 n off from rfl, malformed_bar2 (word_in_page h) n,
    Bool.false_eq_true, if_false]

/-! The window of an instance as the host reads and writes it (R13, R91, R105, R298, R369). -/

/-- A register of the window that is instance state (R435), the INST_T_ registers aside: neither of the stream nor of the Bellows
block. -/
structure CoreReg (off : Nat) : Prop where
  listed : (findReg windowRegs off).isSome = true
  below  : off < 0x7000
  block  : ¬ (0x5000 ≤ off ∧ off < 0x6000)
  thread : ¬ (0x400 ≤ off ∧ off < 0x800)

theorem CoreReg.isNone {off : Nat} (h : CoreReg off) : (findReg windowRegs off).isNone = false :=
  Option.isNone_eq_false_iff.mpr h.listed

/-- The host's access of a window register that it reaches acts on the window itself. -/
theorem winRow_eq {p : Path} (hp : p = .pf ∨ p = .vf) (s : State) (n off : Nat) (v : Word) :
    s.winRow p n off v = s.hostWrite p (.win n off) 4 v.toNat fun s => s.hostWinWrite n off v := by
  obtain rfl | rfl := hp <;> rfl

theorem winRow_host {s : State} {p : Path} {n : Nat} (h : HostReaches s p n) (off : Nat) (v : Word) :
    s.winRow p n off v = (s.answered .done).hostWinWrite n off v := by
  rw [winRow_eq (host_of_reaches h), hostWrite_direct (direct_of_reaches h off)]

theorem winReadRow_host {s : State} {p : Path} {n : Nat} (h : HostReaches s p n) (off : Nat) :
    s.winReadRow p n off = (s.hostWinRead n off).2.answered (.data (s.hostWinRead n off).1) := by
  have e : s.winReadRow p n off = s.hostRead p (.win n off) 4 (fun s => s.winView n) fun s => s.hostWinRead n off := by
    obtain ⟨rfl | rfl, _⟩ := h <;> rfl
  rw [e, hostRead_direct (direct_of_reaches h off)]

/-- A host read of a register of the instance state, VID_VC_LO and AUD_SAMPLE_LO among them. -/
theorem hostWinRead_core {s : State} {n off : Nat} (ha : (s.inst n).adm.state = 2) (hr : CoreReg off) (hc : off ≠ O.ICU_CLAIM) :
    s.hostWinRead n off = (((s.inst n).winValue .host (s.inst n).hostPos off).toNat,
      if off = O.VID_VC_LO then s.setInst n ((s.inst n).holdHi .host false (s.inst n).hostPos)
      else if off = O.AUD_SAMPLE_LO then s.setInst n ((s.inst n).holdHi .host true ((s.inst n).sampleAt (s.inst n).hostPos))
      else s.modCore n fun c => c.readRc off) := by
  unfold State.hostWinRead
  simp only [ha, hr.isNone, inRange_false hr.block, inRange_false hr.thread, Nat.not_le.mpr hr.below, hc, ne_eq, not_true_eq_false,
    Bool.false_and, Bool.false_eq_true, if_false]

/-- A host read of a register of the instance state that holds no high half clears its RC fields. -/
theorem winReadRow_core {s : State} {p : Path} {n off : Nat} (h : HostReaches s p n) (hr : CoreReg off)
    (hl : off ∉ [O.ICU_CLAIM, O.VID_VC_LO, O.AUD_SAMPLE_LO]) :
    s.winReadRow p n off = (s.setInst n { s.inst n with core := (s.core n).readRc off }).answered
      (.data ((s.inst n).winValue .host (s.inst n).hostPos off).toNat) := by
  simp only [List.mem_cons, List.not_mem_nil, or_false, not_or] at hl
  obtain ⟨hc, hv, ha⟩ := hl
  rw [winReadRow_host h, hostWinRead_core (admitted_of_reaches h) hr hc, if_neg hv, if_neg ha]
  rfl

/-- A host read of VID_VC_LO holds the high half of the position for VID_VC_HI (R91, R580). -/
theorem winReadRow_vcLo {s : State} {p : Path} {n : Nat} (h : HostReaches s p n) :
    s.winReadRow p n O.VID_VC_LO
      = (s.setInst n { s.inst n with vcHi := BitVec.ofNat 32 ((s.inst n).hostPos / 2 ^ 32) }).answered
        (.data ((s.inst n).hostPos % 2 ^ 32)) := by
  have e := hostWinRead_core (off := O.VID_VC_LO) (admitted_of_reaches h) ⟨by decide +kernel, by decide, by decide, by decide⟩ (by decide)
  have v : (s.inst n).winValue .host (s.inst n).hostPos O.VID_VC_LO = BitVec.ofNat 32 (s.inst n).hostPos := rfl
  rw [winReadRow_host h, e, v, BitVec.toNat_ofNat]
  rfl

/-- A host read of AUD_SAMPLE_LO holds the high half of the sample number for AUD_SAMPLE_HI (R298, R580). -/
theorem winReadRow_sampleLo {s : State} {p : Path} {n : Nat} (h : HostReaches s p n) :
    s.winReadRow p n O.AUD_SAMPLE_LO
      = (s.setInst n { s.inst n with sampHi := BitVec.ofNat 32 ((s.inst n).sampleAt (s.inst n).hostPos / 2 ^ 32) }).answered
        (.data ((s.inst n).sampleAt (s.inst n).hostPos % 2 ^ 32)) := by
  have e := hostWinRead_core (off := O.AUD_SAMPLE_LO) (admitted_of_reaches h) ⟨by decide +kernel, by decide, by decide, by decide⟩ (by decide)
  have v : (s.inst n).winValue .host (s.inst n).hostPos O.AUD_SAMPLE_LO
    = BitVec.ofNat 32 ((s.inst n).sampleAt (s.inst n).hostPos) := rfl
  rw [winReadRow_host h, e, v, BitVec.toNat_ofNat]
  rfl

/-- A read clears nothing in a register without RC fields. -/
theorem readRc_eq_self {c : Core} {off : Nat} (h : ((findReg windowRegs off).map fun e => e.1.flds.any fun f => f.acc == .rc) = some false) :
    c.readRc off = c := by
  unfold Core.readRc
  cases e : findReg windowRegs off with
  | none => rfl
  | some x =>
    have hx : (x.1.flds.any fun f => f.acc == .rc) = false := by rw [e] at h; exact Option.some.inj h
    simp only [hx, Bool.false_eq_true, if_false]

/-- The capture registers lie in the window, and have no RC fields. -/
theorem captReg_ro : ∀ j < 4,
    ((findReg windowRegs (O.TIM_CAPT + 32 * j)).map fun e => e.1.flds.any fun f => f.acc == .rc) = some false := by
  decide +kernel

/-- A read of a capture by the host is one of its register alone (R369; log entry 25). -/
theorem winReadRow_capt {s : State} {p : Path} {n j : Nat} (h : HostReaches s p n) (hj : j < 4) :
    s.winReadRow p n (O.TIM_CAPT + 32 * j)
      = (s.setInst n (s.inst n)).answered (.data ((s.core n).reg (O.TIM_CAPT + 32 * j)).toNat) := by
  have hr : CoreReg (O.TIM_CAPT + 32 * j) := by
    refine ⟨?_, ?_, ?_, ?_⟩
    · rw [← Option.isSome_map, captReg_ro j hj]; rfl
    all_goals simp only [O.TIM_CAPT]; omega
  have hv : ∀ i : Inst, i.winValue .host i.hostPos (O.TIM_CAPT + 32 * j) = i.core.reg (O.TIM_CAPT + 32 * j) := by
    match j, hj with
    | 0, _ => exact fun _ => rfl
    | 1, _ => exact fun _ => rfl
    | 2, _ => exact fun _ => rfl
    | 3, _ => exact fun _ => rfl
  have hl : ∀ j < 4, O.TIM_CAPT + 32 * j ∉ [O.ICU_CLAIM, O.VID_VC_LO, O.AUD_SAMPLE_LO] := by decide
  rw [winReadRow_core h hr (hl j hj), readRc_eq_self (captReg_ro j hj), hv]
  rfl

/-- Settles O28: each read goes through the window to one register, which answers, and what it holds for the host stands in the
instance. -/
theorem hostReadsClocks : Obligations.HostReadsClocks := by
  unfold Obligations.HostReadsClocks
  intro p n s r q
  refine ⟨?_, ?_, fun j hj => ?_⟩
  · have e : exec (.vidVcLoRead p n) s = fin (s.winReadRow p n O.VID_VC_LO) := rfl
    rw [e, winReadRow_vcLo r]
    exact nextWith_setInst q (by exact q.2 n) _
  · have e : exec (.audSampleLoRead p n) s = fin (s.winReadRow p n O.AUD_SAMPLE_LO) := rfl
    rw [e, winReadRow_sampleLo r]
    exact nextWith_setInst q (by exact q.2 n) _
  · have e : exec (.timCaptRead p n j) s = fin (s.winReadRow p n (O.TIM_CAPT + 32 * j)) := if_pos hj
    rw [e, winReadRow_capt r hj]
    exact nextWith_setInst q (by exact q.2 n) _

/-- The state after reset is safe: no cause, and no level source is set. -/
theorem reset_safe : State.reset.safe := ⟨⟨rfl, fun _ => rfl⟩, show (_ : Nat) = _ by decide +kernel⟩

/-- Settles O59: the tables are empty, so that every read gives the default of its table. -/
theorem resetState : Obligations.ResetState := by
  unfold Obligations.ResetState
  refine ⟨fun _ => rfl, fun _ => rfl, rfl, fun _ => ⟨rfl, rfl⟩, reset_memWf, ?_, rfl, rfl, reset_safe, ?_⟩
  · decide
  · decide +kernel

/-! Register words (R5, R8, R9). -/

/-- Bits 31 to 0 of a register word are all of it. -/
theorem bits_whole (v : Nat) (h : v < 2 ^ 32) : bits v 31 0 = v := by
  unfold bits; rw [Nat.shiftRight_zero]; exact Nat.mod_eq_of_lt h

theorem setBits_whole {v x : Nat} (h : v < 2 ^ 32) (hx : x < 2 ^ 32) : setBits v 31 0 x = x := by
  unfold setBits
  rw [bits_whole v h]
  show v - v * 1 + x % 2 ^ 32 * 1 = x
  rw [Nat.mod_eq_of_lt hx]; omega

/-- A count over a whole register saturates at its greatest value. -/
theorem countUp_toNat (w : Word) (k : Nat) : (countUp w 31 0 k).toNat = min (2 ^ 32 - 1) (w.toNat + k) := by
  have hw := w.isLt
  have hs : satAdd (2 ^ (31 - 0 + 1) - 1) w.toNat k = min (2 ^ 32 - 1) (w.toNat + k) := rfl
  unfold countUp
  rw [bits_whole _ hw, hs, setBits_whole hw (by omega), BitVec.toNat_ofNat]
  omega

/-- A write leaves a register of RO fields alone. -/
theorem write_ro {r : RegSpec} (h : ∀ f ∈ r.flds, f.acc = .ro) (old new : Word) : r.write old new = (old, 0) := by
  have hf : ∀ (l : List Fld), (∀ f ∈ l, f.acc = .ro) → ∀ st : Nat × Nat, l.foldl (fun st f => f.write new.toNat st) st = st := by
    intro l
    induction l with
    | nil => intros; rfl
    | cons f l ih =>
      intro hl st
      have hw : f.write new.toNat st = st := by unfold Fld.write; rw [hl f List.mem_cons_self]
      rw [List.foldl_cons, hw]
      exact ih (fun g hg => hl g (List.mem_cons_of_mem _ hg)) st
  unfold RegSpec.write
  rw [hf _ h]
  simp

/-- A write of a W1C field in the low half of a register clears the bits written as 1. -/
theorem write_w1c_low (r : RegSpec) (h : r.flds = [Fld.w1c 15 0 0]) (old new : Word) :
    (r.write old new).2 = 0 ∧ (r.write old new).1.toNat % 65536 = (old &&& ~~~new).toNat % 65536 := by
  have e : r.write old new = (BitVec.ofNat 32 (setBits old.toNat 15 0
      (bits old.toNat 15 0 ^^^ (bits old.toNat 15 0 &&& bits new.toNat 15 0))), 0) := by
    unfold RegSpec.write; rw [h]; rfl
  have hx : bits old.toNat 15 0 ^^^ (bits old.toNat 15 0 &&& bits new.toNat 15 0) = (old &&& ~~~new).toNat % 2 ^ 16 := by
    refine Nat.eq_of_testBit_eq fun i => ?_
    simp only [bits, Nat.shiftRight_zero, Nat.testBit_xor, Nat.testBit_and, Nat.testBit_mod_two_pow, BitVec.testBit_toNat,
      BitVec.getLsbD_and, BitVec.getLsbD_not]
    by_cases hi : i < 16
    · have h32 : i < 32 := by omega
      cases old.getLsbD i <;> simp [hi, h32]
    · simp [hi]
  refine ⟨by rw [e], ?_⟩
  rw [e, hx]
  simp only [setBits, bits, Nat.shiftRight_zero, BitVec.toNat_ofNat]
  omega

/-! The registers of PF BAR0 (R4 to R9, R465). -/

/-- A write by access type: the register, every other register, and the count of clamps of its block. -/
theorem plainWrite_pf (s : State) (r : RegSpec) (off : Nat) (v : Word) (h : clampOf off ≠ some off) :
    (s.plainWrite r off v).pf off = (r.write (s.pf off) v).1
      ∧ (∀ o, o ≠ off → clampOf off ≠ some o → (s.plainWrite r off v).pf o = s.pf o)
      ∧ ∀ c, clampOf off = some c → (s.plainWrite r off v).pf c = countUp (s.pf c) 31 0 (r.write (s.pf off) v).2 := by
  unfold State.plainWrite
  cases e : clampOf off with
  | none =>
    exact ⟨pf_setPf_same .., fun o ho _ => pf_setPf_other _ _ ho, fun c hc => nomatch hc⟩
  | some c =>
    have hc : c ≠ off := fun x => h (x ▸ e)
    refine ⟨?_, fun o ho hoc => ?_, fun d hd => ?_⟩
    · exact (pf_pfCount_other _ _ _ _ hc.symm).trans (pf_setPf_same ..)
    · exact (pf_pfCount_other _ _ _ _ fun x => hoc (by rw [x])).trans (pf_setPf_other _ _ ho)
    · cases hd
      exact (pf_pfCount_same ..).trans (congrArg (fun w => countUp w 31 0 _) (pf_setPf_other _ _ hc))

/-- Besides registers a write by access type leaves everything as it was. -/
theorem plainWrite_keeps (s : State) (r : RegSpec) (off : Nat) (v : Word) :
    ∃ m, s.plainWrite r off v = { s with regs := m } := by
  unfold State.plainWrite
  cases clampOf off <;> exact ⟨_, rfl⟩

/-- Where no chapter gives a register an action, a write acts by access type alone. -/
theorem regWrite_plain {r : RegSpec} {off : Nat} (h : PlainReg r off) (s : State) (k : Nat) (v : Word) :
    s.regWrite r k off v = s.plainWrite r off v := by
  obtain ⟨_, _, _, _, _, hq, _, ho, hr⟩ := h
  simp only [List.mem_cons, List.not_mem_nil, or_false, not_or] at ho hr
  have hq' : (decide (O.HST_PF_CQ_LO ≤ off) && decide (off ≤ O.HST_PF_CQ_CTRL)) = false := by simpa using hq
  unfold State.regWrite
  simp only [ho, hr, hq', decide_false, Bool.or_self, Bool.false_eq_true, if_false]

theorem pfAccessWrite_plain {r : RegSpec} {k off : Nat} (hf : findReg pfRegs off = some (r, k)) (ha : off % 4 = 0) (h : PlainReg r off)
    (s : State) (v : Word) : s.pfAccessWrite off 4 v.toNat = s.plainWrite r off v := by
  have hr := regWrite_plain h s k v
  obtain ⟨_, hg, hsf, _, hm, _, _, _, _⟩ := h
  have hm' := inRange_false hm
  have hg' := inRange_false (show ¬ (0xB00000 ≤ off ∧ off < 0xC00000) by omega)
  unfold State.pfAccessWrite State.pfWrite
  simp only [hsf, ha, hm', hg', hf, Bool.false_eq_true, if_false, decide_true, Bool.and_self, if_true, BitVec.ofNat_toNat,
    BitVec.setWidth_eq]
  exact hr

/-- A read of a register of PF BAR0 that has no source of its own clears its RC fields. -/
theorem pfRead_plain {off : Nat} (h : off ∉ [O.HBM_STATUS, O.POOL_COLLIDED_COUNT, O.HST_TAGS])
    (he : ¬ (0x780000 ≤ off ∧ off < 0x800000)) (s : State) : s.pfRead off = ((s.pfValue off).toNat, s.pfReadRc off) := by
  simp only [List.mem_cons, List.not_mem_nil, or_false, not_or] at h
  obtain ⟨h1, h2, h3⟩ := h
  have he' := inRange_false he
  unfold State.pfRead
  simp only [h1, h2, h3, he', decide_false, Bool.false_and, Bool.false_eq_true, if_false]

/-- Outside the surface window and the GPIO block a word is read from the register itself. -/
theorem pfMirrorRead_word {off : Nat} (ha : off % 4 = 0) (hs : surfaceAt 4 off = false) (hg : off / 0x100000 ≠ 11) (s : State) :
    s.pfMirrorRead off 4 = s.pfRead off := by
  have h0 : (off == O.GPIO_IN) = false := beq_eq_false_iff_ne.mpr fun x => hg (x ▸ rfl)
  have h1 : (off == O.GPIO_IN + 4) = false := beq_eq_false_iff_ne.mpr fun x => hg (x ▸ rfl)
  unfold State.pfMirrorRead State.pfAccessRead
  simp only [h0, h1, hs, ha, Bool.or_self, Bool.and_false, Bool.false_and, Bool.false_eq_true, if_false, decide_true, Bool.and_self,
    if_true]

theorem pfReadRc_eq {r : RegSpec} {k off : Nat} (hf : findReg pfRegs off = some (r, k)) (s : State) :
    s.pfReadRc off = s.modPf off r.readClear := by
  unfold State.pfReadRc; simp only [hf]

/-- What the command REGISTER_WRITE leaves of a register of PF BAR0 without a chapter of its own (R5, R7, R8; log entry 33). -/
theorem registerWrite_plain {s : State} (q : s.noCause) {r : RegSpec} {k off : Nat} (hf : findReg pfRegs off = some (r, k))
    (ha : off % 4 = 0) (hp : PlainReg r off) (d : s.Direct .pf (.pf off)) (v : Word) :
    NextWith (exec (.registerWrite .pf (.pf off) 4 v.toNat) s) fun u => u.answer = some .done
      ∧ u.pf off = (r.write (s.pf off) v).1
      ∧ (∀ o, o ≠ off → clampOf off ≠ some o → u.pf o = s.pf o)
      ∧ (∀ c, clampOf off = some c → (u.pf c).toNat = min (2 ^ 32 - 1) ((s.pf c).toNat + (r.write (s.pf off) v).2))
      ∧ u.insts = s.insts ∧ u.pool = s.pool ∧ u.hbm = s.hbm := by
  obtain ⟨hb, _, _, _, _, _, hcl, _, _⟩ := id hp
  have e : exec (.registerWrite .pf (.pf off) 4 v.toNat) s = fin ((s.answered .done).plainWrite r off v) := by
    show fin (s.accessWrite .pf (.pf off) 4 v.toNat) = _
    rw [accessWrite_pf hb (word_in_page ha), hostWrite_direct d, pfAccessWrite_plain hf ha hp]
  obtain ⟨hw, ho, hc⟩ := plainWrite_pf (s.answered .done) r off v hcl
  obtain ⟨m, hk⟩ := plainWrite_keeps (s.answered .done) r off v
  rw [e]
  refine nextWith_fin (noCause_congr q (by rw [hk]; rfl) (by rw [hk]; rfl)) ⟨?_, ?_, fun o h1 h2 => ?_, fun c h => ?_, ?_, ?_, ?_⟩
  · rw [icuLevels_answer, hk]; rfl
  · rw [icuLevels_pf]; exact hw
  · rw [icuLevels_pf]; exact ho o h1 h2
  · rw [icuLevels_pf, hc c h, countUp_toNat]; rfl
  · rw [icuLevels_insts, hk]; rfl
  · rw [icuLevels_pool, hk]; rfl
  · rw [icuLevels_hbm, hk]; rfl

/-- What the command READ_CLEAR leaves of a register of PF BAR0 without a source of its own (R5). -/
theorem readClear_plain {s : State} (q : s.noCause) {r : RegSpec} {k off : Nat} (hf : findReg pfRegs off = some (r, k))
    (ha : off % 4 = 0) (hb : off < 0x2000000) (hg : off / 0x100000 ≠ 11) (hs : surfaceAt 4 off = false)
    (he : ¬ (0x780000 ≤ off ∧ off < 0x800000)) (hl : off ∉ [O.HBM_STATUS, O.POOL_COLLIDED_COUNT, O.HST_TAGS])
    (d : s.Direct .pf (.pf off)) :
    NextWith (exec (.readClear .pf (.pf off) 4) s) fun u => u.answer = some (.data (s.pfValue off).toNat) ∧ OnlyReg off s u
      ∧ u.pf off = r.readClear (s.pf off) := by
  have e : exec (.readClear .pf (.pf off) 4) s
      = fin ((s.modPf off r.readClear).answered (.data (s.pfValue off).toNat)) := by
    show fin (s.accessRead .pf (.pf off) 4) = _
    rw [accessRead_pf hb (word_in_page ha), hostRead_direct d, pfMirrorRead_word ha hs hg, pfRead_plain hl he, pfReadRc_eq hf]
  rw [e]
  refine nextWith_fin (noCause_congr q rfl rfl) ⟨icuLevels_answer _, ⟨fun o ho => ?_, ?_, ?_, ?_⟩, ?_⟩
  · rw [icuLevels_pf]; exact pf_modPf_other s _ ho
  · rw [icuLevels_insts]; rfl
  · rw [icuLevels_pool]; rfl
  · rw [icuLevels_hbm]; rfl
  · rw [icuLevels_pf]; exact pf_modPf_same s off _

/-- A write of the host that is no configuration request goes to what it aims at, if it is well formed (R3). -/
theorem accessWrite_host {p : Path} (hp : p = .pf ∨ p = .vf) {a : RegAddr} (hc : ∀ fn x, aimOf p a ≠ .cfg fn x) {width : Nat}
    (hf : malformed p (aimOf p a) width = false) (s : State) (v : Word) :
    ∃ f, s.accessWrite p a width v.toNat = s.hostWrite p (aimOf p a) width v.toNat f := by
  have hwin : ∀ n off, ∃ f, (if (decide (width = 4) && decide (off % 4 = 0)) = true then s.winRow p n off (BitVec.ofNat 32 v.toNat)
      else s.hostWrite p (.win n off) width v.toNat id) = s.hostWrite p (.win n off) width v.toNat f := by
    intro n off
    split
    · rename_i h
      simp only [Bool.and_eq_true, decide_eq_true_eq] at h
      obtain ⟨rfl, _⟩ := h
      rw [BitVec.ofNat_toNat, BitVec.setWidth_eq]
      exact ⟨_, winRow_eq hp s n off v⟩
    · exact ⟨_, rfl⟩
  unfold State.accessWrite
  simp only [hf, Bool.false_eq_true, if_false]
  generalize aimOf p a = b at hc
  obtain rfl | rfl := hp <;> cases b with
  | pf off => exact ⟨_, rfl⟩
  | win n off => exact hwin n off
  | bar2 n off => exact ⟨_, rfl⟩
  | cfg fn x => exact absurd rfl (hc fn x)

/-- The mirror stands for accesses of the host alone. -/
theorem mirrorHolds_host {p : Path} {a : RegAddr} (h : mirrorHolds p a = true) : (p = .pf ∨ p = .vf) ∧ ∀ fn x, a ≠ .cfg fn x := by
  cases p with
  | pf => exact ⟨.inl rfl, fun fn x e => by rw [e] at h; cases h⟩
  | vf => exact ⟨.inr rfl, fun fn x e => by rw [e] at h; cases h⟩
  | mgt k => cases a <;> cases h
  | prog t => cases a <;> cases h

/-- A write that meets the mirror and wakes nothing is noted there, and nothing else changes (R505). -/
theorem registerWrite_mirror {s : State} (q : s.noCause) {p : Path} {a : RegAddr} {width : Nat} {v : Word}
    (ho : s.hostHit p (aimOf p a) = .open) (hm : s.mirrored = true) (hc : mirrorHolds p (aimOf p a) = true)
    (hf : malformed p (aimOf p a) width = false) (hw : s.wakes (aimOf p a) width v.toNat = false) :
    NextWith (exec (.registerWrite p a width v.toNat) s) fun u => u.answer = some .done ∧ u.regs = s.regs ∧ u.insts = s.insts
      ∧ u.power = { s.power with mirrorOps := s.power.mirrorOps ++ [.write p (aimOf p a) width v.toNat] } := by
  obtain ⟨hp, hn⟩ := mirrorHolds_host hc
  obtain ⟨f, hf⟩ := accessWrite_host hp hn hf s v
  have e : exec (.registerWrite p a width v.toNat) s
      = fin ((s.answered .done).mirrorNote (.write p (aimOf p a) width v.toNat)) :=
    congrArg fin (hf.trans (hostWrite_mirror ho hm hc hw f))
  rw [e]
  refine nextWith_fin (noCause_congr q rfl rfl) ⟨icuLevels_answer _, ?_, ?_, ?_⟩
  · rw [icuLevels_regs]; rfl
  · rw [icuLevels_insts]; rfl
  · rw [icuLevels_power]; rfl

/-- HST_WD_STATUS clears the bits written as 1, and clamps nothing. -/
theorem registerWrite_wdStatus {s : State} (q : s.noCause) (ho : s.hostHit .pf (.pf O.HST_WD_STATUS) = .open) (v : Word) :
    NextWith (exec (.registerWrite .pf (.pf O.HST_WD_STATUS) 4 v.toNat) s) fun u => u.answer = some .done
      ∧ OnlyReg O.HST_WD_STATUS s u
      ∧ (u.pf O.HST_WD_STATUS).toNat % 65536 = (s.pf O.HST_WD_STATUS &&& ~~~v).toNat % 65536 := by
  have hf : findReg pfRegs O.HST_WD_STATUS
      = some (⟨"HST_WD_STATUS", 0x80000C, [.w1c 15 0 0], 1, 4, 1, 4, false⟩, 0) := by decide +kernel
  obtain ⟨u, hu, ha, hw, hoth, hc, hi, hpool, hhbm⟩ := registerWrite_plain q hf (by decide)
    (by unfold PlainReg; decide) ⟨ho, fun _ => rfl⟩ v
  obtain ⟨h0, hlow⟩ := write_w1c_low ⟨"HST_WD_STATUS", 0x80000C, [.w1c 15 0 0], 1, 4, 1, 4, false⟩ rfl (s.pf O.HST_WD_STATUS) v
  refine ⟨u, hu, ha, ⟨fun o hne => ?_, hi, hpool, hhbm⟩, by rw [hw]; exact hlow⟩
  by_cases hcl : clampOf O.HST_WD_STATUS = some o
  · have := hc o hcl
    rw [h0] at this
    exact BitVec.eq_of_toNat_eq (by have := (s.pf o).isLt; omega)
  · exact hoth o hne hcl

/-- HST_IDENT is read only: a write of it leaves every register, whether it lands or meets the mirror. -/
theorem registerWrite_ident {s : State} (q : s.noCause) (ho : s.hostHit .pf (.pf O.HST_IDENT) = .open) (v : Word) :
    NextWith (exec (.registerWrite .pf (.pf O.HST_IDENT) 4 v.toNat) s) fun u => u.answer = some .done
      ∧ (∀ o, u.pf o = s.pf o) ∧ u.insts = s.insts := by
  by_cases hm : s.mirrored = true
  · obtain ⟨u, hu, ha, hr, hi, _⟩ := registerWrite_mirror (a := .pf O.HST_IDENT) (width := 4) (v := v) q ho hm rfl rfl (by rfl)
    exact ⟨u, hu, ha, pf_congr hr, hi⟩
  · have hf : findReg pfRegs O.HST_IDENT
        = some (⟨"HST_IDENT", 0x0, [.ro 31 16 0x8512, .ro 15 8 3, .ro 3 0 0], 1, 4, 1, 4, false⟩, 0) := by decide +kernel
    obtain ⟨u, hu, ha, hw, hoth, _, hi, _, _⟩ := registerWrite_plain q hf (by decide) (by unfold PlainReg; decide)
      ⟨ho, fun h => absurd h hm⟩ v
    refine ⟨u, hu, ha, fun o => ?_, hi⟩
    by_cases hne : o = O.HST_IDENT
    · rw [hne, hw, write_ro (by decide)]
    · exact hoth o hne nofun

/-- MGT_CLAMP_COUNT reads as it stands, and a read clears it (R8, R9). -/
theorem readClear_mgtClampCount {s : State} (q : s.noCause) (ho : s.hostHit .pf (.pf O.MGT_CLAMP_COUNT) = .open) :
    NextWith (exec (.readClear .pf (.pf O.MGT_CLAMP_COUNT) 4) s) fun u => u.answer = some (.data (s.pf O.MGT_CLAMP_COUNT).toNat)
      ∧ OnlyReg O.MGT_CLAMP_COUNT s u ∧ u.pf O.MGT_CLAMP_COUNT = 0 := by
  have hf : findReg pfRegs O.MGT_CLAMP_COUNT
      = some (⟨"MGT_CLAMP_COUNT", 0x100038, [.rc 31 0 0], 1, 4, 1, 4, false⟩, 0) := by decide +kernel
  have hv : s.pfValue O.MGT_CLAMP_COUNT = s.pf O.MGT_CLAMP_COUNT := rfl
  obtain ⟨u, hu, ha, hr, hc⟩ := readClear_plain q hf (by decide) (by decide) (by decide) (by decide) (by decide) (by decide)
    ⟨ho, fun _ => rfl⟩
  refine ⟨u, hu, by rw [ha, hv], hr, hc.trans ?_⟩
  show BitVec.ofNat 32 (setBits (s.pf O.MGT_CLAMP_COUNT).toNat 31 0 0) = 0
  rw [setBits_whole (s.pf O.MGT_CLAMP_COUNT).isLt (by decide)]
  rfl

/-! Accesses of an instance window by its commands, by a program and by the host (R13, R105, R322, R340). -/

/-- A word written to a window offset is the write of that register. -/
theorem registerWrite_win {off : Nat} (h : off % 4 = 0) (s : State) (p : Path) (n : Nat) (v : Word) :
    exec (.registerWrite p (.win n off) 4 v.toNat) s = fin (s.winRow p n off v) := by
  show fin (s.accessWrite p (.win n off) 4 v.toNat) = _
  rw [accessWrite_win h, BitVec.ofNat_toNat, BitVec.setWidth_eq]

theorem readClear_win {off : Nat} (h : off % 4 = 0) (s : State) (p : Path) (n : Nat) :
    exec (.readClear p (.win n off) 4) s = fin (s.winReadRow p n off) := by
  show fin (s.accessRead p (.win n off) 4) = _
  rw [accessRead_win h]

/-- The commands that write or read one register of a window are the accesses of that register. -/
theorem window_commands (v : Word) (s : State) (p : Path) (n : Nat) :
    (∀ e ∈ [(O.INST_THREAD_CTRL, Instr.threadRunWrite p n v), (O.ICU_EOI, .icuEoi p n v), (O.EVT_SW, .evtSw p n v),
          (O.VID_TIMING, .vidTimingWrite p n v), (O.CMP_COMMIT, .cmpCommit p n v), (O.BLT_SUBMIT, .bltSubmit p n v)],
        exec (.registerWrite p (.win n e.1) 4 v.toNat) s = exec e.2 s)
      ∧ (∀ e ∈ [(O.VID_VC_LO, Instr.vidVcLoRead p n), (O.AUD_SAMPLE_LO, .audSampleLoRead p n)],
        exec (.readClear p (.win n e.1) 4) s = exec e.2 s)
      ∧ ∀ j < 4, exec (.registerWrite p (.win n (O.TIM_CTRL + 32 * j)) 4 v.toNat) s = exec (.timCtrlWrite p n j v) s
        ∧ exec (.registerWrite p (.win n (O.DMA_CTRL + 32 * j)) 4 v.toNat) s = exec (.dmaStart p n j v) s
        ∧ exec (.readClear p (.win n (O.TIM_CAPT + 32 * j)) 4) s = exec (.timCaptRead p n j) s := by
  refine ⟨?_, ?_, fun j hj => ⟨?_, ?_, ?_⟩⟩
  · simp only [List.forall_mem_cons, List.not_mem_nil, false_imp_iff, implies_true, and_true]
    exact ⟨registerWrite_win rfl s p n v, registerWrite_win rfl s p n v, registerWrite_win rfl s p n v,
      registerWrite_win rfl s p n v, registerWrite_win rfl s p n v, registerWrite_win rfl s p n v⟩
  · simp only [List.forall_mem_cons, List.not_mem_nil, false_imp_iff, implies_true, and_true]
    exact ⟨readClear_win rfl s p n, readClear_win rfl s p n⟩
  · have e : exec (.timCtrlWrite p n j v) s = fin (s.winRow p n (O.TIM_CTRL + 32 * j) v) := if_pos hj
    rw [e, registerWrite_win (by simp only [O.TIM_CTRL]; omega)]
  · have e : exec (.dmaStart p n j v) s = fin (s.winRow p n (O.DMA_CTRL + 32 * j) v) := if_pos hj
    rw [e, registerWrite_win (by simp only [O.DMA_CTRL]; omega)]
  · have e : exec (.timCaptRead p n j) s = fin (s.winReadRow p n (O.TIM_CAPT + 32 * j)) := if_pos hj
    rw [e, readClear_win (by simp only [O.TIM_CAPT]; omega)]

/-- A program's access is its next word, where that word makes it (R310, R322; log entry 24). -/
theorem registerWrite_prog {s : State} {n t off : Nat} {f : FmtM} {v : Word} (ha : off % 4 = 0)
    (h : s.nextAccess n t off (some v) = some f) : exec (.registerWrite (.prog t) (.win n off) 4 v.toNat) s = exec (.sw n t f) s := by
  have e : s.storeIo n t off v = s.storeWord n t 0x1A 4 f := by unfold State.storeIo; rw [h]
  exact (registerWrite_win ha s (.prog t) n v).trans (congrArg fin e)

theorem readClear_prog {s : State} {n t off : Nat} {f : FmtM} (ha : off % 4 = 0)
    (h : s.nextAccess n t off none = some f) : exec (.readClear (.prog t) (.win n off) 4) s = exec (.lw n t f) s := by
  have e : s.loadIo n t off = s.loadWord n t 0x14 4 f (BitVec.ofNat 32) := by unfold State.loadIo; rw [h]
  exact (readClear_win ha s (.prog t) n).trans (congrArg fin e)

/-- A host write of a Playing instance is held for the boundary (R105). -/
theorem hostWinWrite_playing {s : State} {n off : Nat} (v : Word) (ha : (s.inst n).adm.state = 2) (hr : CoreReg off)
    (hp : (s.inst n).rung = .playing) :
    s.hostWinWrite n off v = s.setInst n { s.inst n with hostHeld := (s.inst n).hostHeld ++ [⟨off, v⟩] } := by
  unfold State.hostWinWrite
  simp only [ha, hr.isNone, inRange_false hr.block, inRange_false hr.thread, Nat.not_le.mpr hr.below, hp, ne_eq, not_true_eq_false,
    decide_false, Bool.or_self, Bool.false_eq_true, if_false, decide_true, Bool.not_false, Bool.and_self, if_true]

theorem registerWrite_playing {s : State} (q : s.noCause) {p : Path} {n off : Nat} (v : Word) (r : HostReaches s p n)
    (ha : off % 4 = 0) (hr : CoreReg off) (hp : (s.inst n).rung = .playing) :
    NextWith (exec (.registerWrite p (.win n off) 4 v.toNat) s) fun u => u.answer = some .done ∧ OnlyInstance n s u
      ∧ u.inst n = { s.inst n with hostHeld := (s.inst n).hostHeld ++ [⟨off, v⟩] } := by
  have e : s.winRow p n off v
      = (s.setInst n { s.inst n with hostHeld := (s.inst n).hostHeld ++ [⟨off, v⟩] }).answered .done := by
    rw [winRow_host r]; exact hostWinWrite_playing v (admitted_of_reaches r) hr hp
  rw [registerWrite_win ha, e]
  obtain ⟨u, hu, ho, hans, hi⟩ := nextWith_setInst (n := n)
    (i := { s.inst n with hostHeld := (s.inst n).hostHeld ++ [⟨off, v⟩] }) q (q.2 n) .done
  exact ⟨u, hu, hans, ho, hi⟩

theorem readRc_threads (c : Core) (off : Nat) : (c.readRc off).threads = c.threads := by
  unfold Core.readRc
  split
  · exact ite_pred (P := fun d : Core => d.threads = c.threads) rfl rfl
  · rfl

theorem readClear_window {s : State} (q : s.noCause) {p : Path} {n off : Nat} (r : HostReaches s p n)
    (ha : off % 4 = 0) (hr : CoreReg off) (hl : off ∉ [O.ICU_CLAIM, O.VID_VC_LO, O.AUD_SAMPLE_LO]) :
    NextWith (exec (.readClear p (.win n off) 4) s) fun u => OnlyInstance n s u
      ∧ u.answer = some (.data ((s.inst n).winValue .host (s.inst n).hostPos off).toNat) ∧ (u.core n).threads = (s.core n).threads := by
  rw [readClear_win ha, winReadRow_core r hr hl]
  obtain ⟨u, hu, ho, hans, hi⟩ := nextWith_setInst (n := n) (i := { s.inst n with core := (s.core n).readRc off }) q (q.2 n)
    (.data ((s.inst n).winValue .host (s.inst n).hostPos off).toNat)
  refine ⟨u, hu, ho, hans, ?_⟩
  rw [State.core, hi]
  exact readRc_threads (s.core n) off

/-! BAR2 of a VF, the configuration items, the management pairs, and accesses that R3 does not allow. -/

/-- BAR2 is reached by a VF alone (R466). -/
theorem path_of_bar2 {s : State} {p : Path} {n off : Nat} (d : s.Direct p (.bar2 n off)) : p = .vf := by
  obtain ⟨ho, _⟩ := d
  cases p with
  | vf => rfl
  | pf =>
    have hn : s.hostHit .pf (.bar2 n off) = .none := ite_self Hit.none
    rw [hn] at ho
    cases ho
  | mgt k => cases ho
  | prog t => cases ho

/-- A write of a register of BAR2 outside the rings and doorbells: the register, and the count of clamps. -/
theorem vfWrite_plain {s : State} {n off k : Nat} {r : RegSpec} (v : Word) (hf : findReg vfRegs off = some (r, k))
    (ho : off < 0x1000 ∨ 0x10000 ≤ off) (hm : off < 0x20000)
    (hr : r.name ∉ ["HST_VF_RING_CTRL", "HST_VF_DB", "HST_VF_CLAMP_COUNT"]) :
    ∃ f : Vf, s.vfWrite n off v = s.setInst n { s.inst n with vf := f } ∧ f.reg off = (r.write ((s.inst n).vf.reg off) v).1 := by
  have hne : off ≠ O.HST_VF_CLAMP_COUNT := by
    rintro rfl
    have hn : (findReg vfRegs O.HST_VF_CLAMP_COUNT).map (fun e => e.1.name) = some "HST_VF_CLAMP_COUNT" := by decide +kernel
    rw [hf] at hn
    have hx : r.name = "HST_VF_CLAMP_COUNT" := Option.some.inj hn
    exact hr (by rw [hx]; decide)
  simp only [List.mem_cons, List.not_mem_nil, or_false, not_or] at hr
  obtain ⟨hc, hd, _⟩ := hr
  have hm' : decide (0x20000 ≤ off) = false := decide_eq_false (by omega)
  have hx := inRange_false (show ¬ (0x1000 ≤ off ∧ off < 0x10000) by omega)
  have e : s.vfWrite n off v = s.modVf n fun f => (f.setReg off (r.write ((s.inst n).vf.reg off) v).1).modReg O.HST_VF_CLAMP_COUNT
      fun x => countUp x 31 0 (r.write ((s.inst n).vf.reg off) v).2 := by
    unfold State.vfWrite
    simp only [hm', hf, hc, hd, hx, Bool.false_and, Bool.false_eq_true, if_false]
  exact ⟨_, e, (get_set_other _ _ _ hne).trans (get_set_same _ _ _ _)⟩

/-- The outcome of a command that answers the host and changes the VF of instance n. -/
theorem nextWith_setVf {s : State} (q : s.noCause) (n : Nat) (f : Vf) (a : Tlp) :
    NextWith (fin ((s.setInst n { s.inst n with vf := f }).answered a)) fun u => u.answer = some a ∧ OnlyInstance n s u
      ∧ u.core n = s.core n ∧ (u.inst n).vf = f := by
  obtain ⟨u, hu, ho, ha, hi⟩ := nextWith_setInst (n := n) (i := { s.inst n with vf := f }) q (q.2 n) a
  exact ⟨u, hu, ha, ho, by unfold State.core; rw [hi], by rw [hi]⟩

theorem registerWrite_bar2 {s : State} (q : s.noCause) {p : Path} {n off k : Nat} {r : RegSpec} (v : Word)
    (d : s.Direct p (.bar2 n off)) (ha : off % 4 = 0) (ho : off < 0x1000 ∨ 0x10000 ≤ off) (hm : off < 0x20000)
    (hf : findReg vfRegs off = some (r, k)) (hr : r.name ∉ ["HST_VF_RING_CTRL", "HST_VF_DB", "HST_VF_CLAMP_COUNT"]) :
    NextWith (exec (.registerWrite p (.bar2 n off) 4 v.toNat) s) fun u => u.answer = some .done ∧ OnlyInstance n s u
      ∧ u.core n = s.core n ∧ (u.inst n).vf.reg off = (r.write ((s.inst n).vf.reg off) v).1 := by
  obtain rfl := path_of_bar2 d
  obtain ⟨f, hw, hreg⟩ := vfWrite_plain (s := s.answered .done) (n := n) v hf ho hm hr
  have e : exec (.registerWrite .vf (.bar2 n off) 4 v.toNat) s = fin ((s.setInst n { s.inst n with vf := f }).answered .done) := by
    have hx : (s.answered .done).vfAccessWrite n off 4 v.toNat = (s.answered .done).vfWrite n off v := by
      unfold State.vfAccessWrite
      simp only [ha, decide_true, Bool.and_self, if_true, BitVec.ofNat_toNat, BitVec.setWidth_eq]
    show fin (s.accessWrite .vf (.bar2 n off) 4 v.toNat) = _
    rw [accessWrite_bar2 ha, hostWrite_direct d, hx, hw]
    rfl
  rw [e]
  obtain ⟨u, hu, h1, h2, h3, h4⟩ := nextWith_setVf q n f .done
  exact ⟨u, hu, h1, h2, h3, by rw [h4]; exact hreg⟩

theorem readClear_bar2 {s : State} (q : s.noCause) {p : Path} {n off k : Nat} {r : RegSpec} (d : s.Direct p (.bar2 n off))
    (ha : off % 4 = 0) (hf : findReg vfRegs off = some (r, k)) :
    NextWith (exec (.readClear p (.bar2 n off) 4) s) fun u => u.answer = some (.data (s.vfValue n off).toNat) ∧ OnlyInstance n s u
      ∧ u.core n = s.core n ∧ (u.inst n).vf.reg off = r.readClear ((s.inst n).vf.reg off) := by
  obtain rfl := path_of_bar2 d
  have hv : s.vfAccessRead n off 4 = ((s.vfValue n off).toNat, s.modVf n fun f => f.modReg off r.readClear) := by
    unfold State.vfAccessRead State.vfRead
    simp only [ha, hf, decide_true, Bool.and_self, if_true]
  have e : exec (.readClear .vf (.bar2 n off) 4) s = fin ((s.setInst n { s.inst n with
      vf := (s.inst n).vf.modReg off r.readClear }).answered (.data (s.vfValue n off).toNat)) := by
    show fin (s.accessRead .vf (.bar2 n off) 4) = _
    rw [accessRead_bar2 ha, hostRead_direct d, hv]
    rfl
  rw [e]
  obtain ⟨u, hu, h1, h2, h3, h4⟩ := nextWith_setVf q n ((s.inst n).vf.modReg off r.readClear) (.data (s.vfValue n off).toNat)
  exact ⟨u, hu, h1, h2, h3, by rw [h4]; exact get_set_same _ _ _ _⟩

/-- A configuration request of a device that is ready is carried out (R462). -/
theorem configure_ready {s : State} (hl : s.host.linkUp = true) (hp : s.pwr ≠ 4) (hr : s.boot.ready = true) (f : State → State) :
    s.configure f = f (s.answered .done) := by
  unfold State.configure
  simp only [hl, hp, hr, Bool.not_true, decide_false, Bool.or_self, Bool.false_eq_true, if_false]

theorem accessRead_cfg {p : Path} (hp : p = .pf ∨ p = .vf) (s : State) (fn width : Nat) (x : CfgItem) :
    s.accessRead p (.cfg fn x) width = s.configure fun s =>
      if fn ≠ 0 && !s.vfExists fn then s.answered .unsupported else s.answered (.data (s.cfgValue fn x)) := by
  obtain rfl | rfl := hp <;> rfl

theorem accessWrite_cfg {p : Path} (hp : p = .pf ∨ p = .vf) (s : State) (fn width v : Nat) (x : CfgItem) :
    s.accessWrite p (.cfg fn x) width v = s.configure fun s => s.cfgWrite fn x v := by
  obtain rfl | rfl := hp <;> rfl

theorem readClear_cfg {s : State} (q : s.noCause) {p : Path} (hp : p = .pf ∨ p = .vf) (fn width : Nat) (x : CfgItem)
    (hl : s.host.linkUp = true) (hw : s.pwr ≠ 4) (hr : s.boot.ready = true) (he : fn = 0 ∨ (s.inst (fn - 1)).vf.enabled = true) :
    NextWith (exec (.readClear p (.cfg fn x) width) s) fun u => u.answer = some (.data (s.cfgValue fn x)) ∧ u.regs = s.regs
      ∧ u.insts = s.insts := by
  have hx : (decide (fn ≠ 0) && !(s.answered .done).vfExists fn) = false := by
    have hi : (s.answered .done).inst (fn - 1) = s.inst (fn - 1) := rfl
    rcases he with h | h
    · simp only [h, ne_eq, not_true_eq_false, decide_false, Bool.false_and]
    · by_cases h0 : fn = 0
      · simp only [h0, ne_eq, not_true_eq_false, decide_false, Bool.false_and]
      · unfold State.vfExists
        rw [hi, h, decide_eq_true (Nat.pos_of_ne_zero h0), Bool.and_self, Bool.not_true, Bool.and_false]
  have hv : (s.answered .done).cfgValue fn x = s.cfgValue fn x := rfl
  have e : exec (.readClear p (.cfg fn x) width) s = fin (s.answered (.data (s.cfgValue fn x))) := by
    show fin (s.accessRead p (.cfg fn x) width) = _
    rw [accessRead_cfg hp, configure_ready hl hw hr, hx, if_neg Bool.false_ne_true, hv]
    rfl
  rw [e]
  exact nextWith_fin (noCause_answered q _) ⟨icuLevels_answer _, icuLevels_regs _, icuLevels_insts _⟩

theorem registerWrite_l12 {s : State} (q : s.noCause) {p : Path} (hp : p = .pf ∨ p = .vf) (width : Nat) (v : Word)
    (hl : s.host.linkUp = true) (hw : s.pwr ≠ 4) (hr : s.boot.ready = true) :
    NextWith (exec (.registerWrite p (.cfg 0 .l12Enable) width v.toNat) s) fun u => u.answer = some .done
      ∧ u.host.l12 = v.getLsbD 0 ∧ u.insts = s.insts := by
  have e : exec (.registerWrite p (.cfg 0 .l12Enable) width v.toNat) s
      = fin ({ s with host := { s.host with l12 := tb v.toNat 0 } }.answered .done) := by
    show fin (s.accessWrite p (.cfg 0 .l12Enable) width v.toNat) = _
    rw [accessWrite_cfg hp, configure_ready hl hw hr]
    rfl
  have hb : tb v.toNat 0 = v.getLsbD 0 := by
    rw [← BitVec.testBit_toNat, Nat.testBit_zero]
    rfl
  rw [e]
  exact nextWith_fin (noCause_congr q rfl rfl) ⟨icuLevels_answer _, (icuLevels_l12 _).trans hb, icuLevels_insts _⟩

/-- A management pair reads the GPIO block; the mirror does not stand for it (R549). -/
theorem readClear_mgt {s : State} (q : s.noCause) {k off : Nat} (ho : s.hostHit (.mgt k) (.pf off) = .open) (ha : off % 4 = 0) :
    NextWith (exec (.readClear (.mgt k) (.pf off) 4) s) fun u => u.answer = some (.data (s.gpioValue off).toNat)
      ∧ u.insts = s.insts := by
  obtain ⟨m, hm⟩ : ∃ m, s.pfReadRc off = { s with regs := m } := by
    unfold State.pfReadRc; cases findReg pfRegs off <;> exact ⟨_, rfl⟩
  have e : exec (.readClear (.mgt k) (.pf off) 4) s
      = fin (({ s with regs := m } : State).answered (.data (s.gpioValue off).toNat)) := by
    have hr : s.accessRead (.mgt k) (.pf off) 4 = s.hostRead (.mgt k) (.pf off) 4 id fun s =>
        if decide (4 = 4) && decide (off % 4 = 0) then ((s.gpioValue off).toNat, s.pfReadRc off) else (0, s) := rfl
    show fin (s.accessRead (.mgt k) (.pf off) 4) = _
    rw [hr, hostRead_direct ⟨ho, fun _ => rfl⟩]
    simp only [ha, decide_true, Bool.and_self, if_true, hm]
  rw [e]
  exact nextWith_fin (noCause_congr q rfl rfl) ⟨icuLevels_answer _, icuLevels_insts _⟩

/-- An access of PF BAR0 below the surface window that is no aligned word (R3). -/
theorem pfAccess_ignored {off width : Nat} (hw : width ≠ 4 ∨ off % 4 ≠ 0) (hb : off < 0x380000) (s : State) (v : Nat) :
    s.pfAccessWrite off width v = s ∧ s.pfMirrorRead off width = (0, s) := by
  have hs : surfaceAt width off = false := by
    unfold surfaceAt
    rw [decide_eq_false (show ¬ 0x3A0000 ≤ off by omega)]; rfl
  have hx : pfMsixAt off = false := by
    unfold pfMsixAt
    rw [decide_eq_false (show ¬ 0x804000 ≤ off by omega)]; rfl
  have h4 : (decide (width = 4) && decide (off % 4 = 0)) = false := by
    simp only [Bool.and_eq_false_imp, decide_eq_true_eq, decide_eq_false_iff_not]
    exact fun h => hw.resolve_left (absurd h)
  have h0 : (off == O.GPIO_IN) = false := beq_eq_false_iff_ne.mpr (by simp only [O.GPIO_IN]; omega)
  have h1 : (off == O.GPIO_IN + 4) = false := beq_eq_false_iff_ne.mpr (by simp only [O.GPIO_IN]; omega)
  constructor
  · unfold State.pfAccessWrite
    simp only [hs, h4, hx, Bool.and_false, Bool.false_eq_true, if_false]
  · unfold State.pfMirrorRead State.pfAccessRead
    simp only [hs, h4, hx, h0, h1, Bool.or_self, Bool.and_false, Bool.false_and, Bool.false_eq_true, if_false]

theorem registerWrite_ignored {s : State} (q : s.noCause) {off width : Nat} (hw : width ≠ 4 ∨ off % 4 ≠ 0) (hb : off < 0x380000)
    (hp : off % 4096 + width ≤ 4096) (d : s.Direct .pf (.pf off)) (v : Nat) :
    NextWith (exec (.registerWrite .pf (.pf off) width v) s) fun u => u.answer = some .done ∧ u.regs = s.regs
      ∧ u.insts = s.insts ∧ u.pool = s.pool ∧ u.hbm = s.hbm := by
  have e : exec (.registerWrite .pf (.pf off) width v) s = fin (s.answered .done) := by
    show fin (s.accessWrite .pf (.pf off) width v) = _
    rw [accessWrite_pf (by omega) hp, hostWrite_direct d, (pfAccess_ignored hw hb _ v).1]
  rw [e]
  exact nextWith_fin (noCause_answered q _)
    ⟨icuLevels_answer _, icuLevels_regs _, icuLevels_insts _, icuLevels_pool _, icuLevels_hbm _⟩

theorem readClear_ignored {s : State} (q : s.noCause) {off width : Nat} (hw : width ≠ 4 ∨ off % 4 ≠ 0) (hb : off < 0x380000)
    (hp : off % 4096 + width ≤ 4096) (d : s.Direct .pf (.pf off)) :
    NextWith (exec (.readClear .pf (.pf off) width) s) fun u => u.answer = some (.data 0) ∧ u.regs = s.regs ∧ u.insts = s.insts := by
  have e : exec (.readClear .pf (.pf off) width) s = fin (s.answered (.data 0)) := by
    show fin (s.accessRead .pf (.pf off) width) = _
    rw [accessRead_pf (by omega) hp, hostRead_direct d, (pfAccess_ignored hw hb s 0).2]
  rw [e]
  exact nextWith_fin (noCause_answered q _) ⟨icuLevels_answer _, icuLevels_regs _, icuLevels_insts _⟩

/-- Settles O58: path by path, an access goes through the window or the mirror to the register that it names, and there is one lemma
for what each of them leaves. -/
theorem registerAccesses : Obligations.RegisterAccesses := by
  unfold Obligations.RegisterAccesses
  intro v s q
  refine ⟨?plain, fun ho => registerWrite_wdStatus q ho v, fun ho => registerWrite_ident q ho v,
    fun ho => readClear_mgtClampCount q ho, fun p n => window_commands v s p n, ?program, ?window, ?mirror, ?bar2, ?config, ?mgt, ?ignored⟩
  case plain =>
    intro r k off hf ha hp d
    obtain ⟨hb, hg, hs, he, _, _, _, ho, _⟩ := id hp
    exact ⟨registerWrite_plain q hf ha hp d v,
      readClear_plain q hf ha hb hg hs he (fun h => ho (List.mem_of_mem_take (i := 3) h)) d⟩
  case program => exact fun n t off f ha => ⟨registerWrite_prog ha, readClear_prog ha⟩
  case window =>
    exact fun p n off r ha hr hs hb => ⟨fun hp ht => registerWrite_playing q v r ha ⟨hr, hs, hb, ht⟩ hp,
      fun hl ht => readClear_window q r ha ⟨hr, hs, hb, ht⟩ hl⟩
  case mirror => exact fun p a width ho hm hc hf hw => registerWrite_mirror q ho hm hc hf hw
  case bar2 =>
    exact fun p n off k r d ha ho hm hf hr => ⟨registerWrite_bar2 q v d ha ho hm hf hr, readClear_bar2 q d ha hf⟩
  case config =>
    intro p fn width x hp hl hw hr he
    refine ⟨readClear_cfg q hp fn width x hl hw hr he, ?_⟩
    rintro rfl rfl
    exact registerWrite_l12 q hp width v hl hw hr
  case mgt => exact fun k off ho ha _ => readClear_mgt q ho ha
  case ignored =>
    exact fun off width hw hb hp d => ⟨registerWrite_ignored q hw hb hp d v.toNat, readClear_ignored q hw hb hp d⟩

end Sys2Proof.Proofs

namespace Sys2Proof.Proofs
open Sys2Proof.Machine Sys2Proof.Laws

/-! PROOFS of the family of 01_architecture.md: the shared engines, renderers, tests of units, and the moves of the ladder. -/

/-- An outcome holds with what follows from what it leaves. -/
theorem nextWith_mono {o : Result} {P Q : State → Prop} (h : NextWith o P) (f : ∀ u, P u → Q u) : NextWith o Q := by
  obtain ⟨u, e, p⟩ := h
  exact ⟨u, e, f u p⟩

/-! The shared blit queue and its engines (R31, R230, R231, R582). -/

/-- A command that replaces the engines' state, and the core of instance n by one made from it. -/
theorem nextWith_engCore {s : State} (q : s.noCause) (e : EngineSt) (n : Nat) (f : Core → Core) :
    NextWith (fin (({ s with eng := e } : State).modCore n f)) fun u =>
      u.eng = e ∧ u.inst n = { s.inst n with core := f (s.core n) } ∧ ∀ m, m ≠ n → u.inst m = s.inst m :=
  nextWith_fin (modCore_noCause (noCause_congr q rfl rfl) n f)
    ⟨icuLevels_eng _, (icuLevels_inst _ n).trans (inst_modInst_same _ n _),
      fun m hm => (icuLevels_inst _ m).trans (inst_modInst_other _ _ hm)⟩

/-- An engine takes a job: the job leaves the queue and runs (R230). -/
theorem nextWith_engineTake {s : State} (q : s.noCause) (k n j : Nat) :
    NextWith (fin (s.engineTake k (n, j))) fun u =>
      u.eng.blit = (k, (n, j)) :: s.eng.blit.filter (fun e => e.1 != k)
      ∧ u.eng.blitQ = s.blitQueue.filter (· != (n, j))
      ∧ (u.core n).blits = (s.core n).blits.map (fun x => if x.seq = j then { x with phase := .running } else x)
      ∧ ∀ m, m ≠ n → u.inst m = s.inst m :=
  nextWith_mono (nextWith_engCore q _ n _) fun _ ⟨he, hi, ho⟩ =>
    ⟨congrArg EngineSt.blit he, congrArg EngineSt.blitQ he, congrArg (fun i : Inst => i.core.blits) hi, ho⟩

/-- Held beats of blit jobs, counted. -/
theorem blitHeld_eq_countP (s : State) (n : Nat) : s.blitHeld n = (s.core n).beats.countP fun b => !b.dma :=
  List.countP_eq_length_filter.symm

theorem blitHeld_eq_zero {s : State} {n : Nat} (h : ∀ b ∈ (s.core n).beats, b.dma = true) : s.blitHeld n = 0 := by
  rw [blitHeld_eq_countP, List.countP_eq_zero]
  intro b hb
  simp [h b hb]

/-- The first instance of the table reads as its entry. -/
theorem inst_of_insts {s : State} {n : Nat} {i : Inst} {l : Map Inst} (h : s.insts = (n, i) :: l) : s.inst n = i := by
  unfold State.inst; rw [h]; exact if_pos rfl

/-- A job enters the queue (R31, R230). -/
theorem blitJobCreditWait_enters {n : Nat} {j : BlitJob} {s : State}
    (hj : ((s.core n).blits.find? fun j => j.phase == .waiting) = some j)
    (hroom : ((s.blitQueue.filter fun e => ((s.core e.1).blits.any fun j => j.seq == e.2 && j.ownCred == (s.blitCredits n).2)
      && (!(s.blitCredits n).2 || e.1 == n)).length < (s.blitCredits n).1) ∧ s.blitQueue.length < 32)
    (hturn : (s.blitCredits n).2 = true ∨ s.portNext = some (n, j.seq)) :
    exec (.blitJobCreditWait n) s = fin (({ s with eng := { s.eng with
          blitQ := s.blitQueue ++ [(n, j.seq)], blitWait := s.eng.blitWait.filter (· != (n, j.seq)) } } : State).modCore n fun c =>
        { c with blits := c.blits.map fun x =>
            if x.seq = j.seq then { x with phase := .queued, ownCred := (s.blitCredits n).2 } else x }) := by
  show execBlitJobCreditWait n s = _
  have hport : (!(s.blitCredits n).2 && s.portNext != some (n, j.seq)) = false := by
    rcases hturn with h | h <;> simp [h]
  unfold execBlitJobCreditWait
  simp only [hj, Nat.not_le.mpr hroom.1, Nat.not_le.mpr hroom.2, hport, decide_false, Bool.or_self, Bool.false_eq_true, if_false]

/-- The oldest job that may run is taken (R230). -/
theorem blitJobTake_takes {k : Nat} {e : Nat × Nat} {s : State}
    (hq : (s.blitQueue.find? fun q => ((s.core q.1).blits.head?.map (·.seq)) == some q.2) = some e) (hf : s.engineFree k = true) :
    exec (.blitJobTake k) s = fin (s.engineTake k e) := by
  show execBlitJobTake k s = _
  unfold execBlitJobTake
  simp only [hq, hf, if_true]

/-- An engine that holds 64 beats lets its job go (R231). -/
theorem blitSetAside_lets {k n j : Nat} {s : State} (hj : s.engineJob k = some (n, j))
    (hb : 64 ≤ (s.core n).beats.countP fun b => !b.dma) :
    exec (.blitSetAside k) s = fin (({ s with eng := { s.eng with blit := s.eng.blit.filter fun e => e.1 != k } } : State).jobPhase
      n j .aside) := by
  show execBlitSetAside k s = _
  unfold execBlitSetAside
  simp only [hj, blitHeld_eq_countP, hb, if_true]

/-- The job set aside of the first instance, its beats landed, resumes (R231). -/
theorem blitResume_resumes {k n : Nat} {j : BlitJob} {i : Inst} {r : List BlitJob} {l : Map Inst} {s : State}
    (hi : s.insts = (n, i) :: l) (hj : i.core.blits = j :: r) (ha : j.phase = .aside) (hb : ∀ b ∈ i.core.beats, b.dma = true)
    (hf : s.engineFree k = true) : exec (.blitResume k) s = fin (s.engineTake k (n, j.seq)) := by
  have hh : s.blitHeld n = 0 := blitHeld_eq_zero fun b h => hb b (by rwa [State.core, inst_of_insts hi] at h)
  show execBlitResume k s = _
  unfold execBlitResume
  simp only [hi, List.findSome?_cons, hj, ha, hh, decide_true, Bool.and_self, if_true, hf]

/-- Settles O34: each of the four events replaces the engines' state and the phases of one instance's jobs. -/
theorem blitEnginesTakeJobs : Obligations.BlitEnginesTakeJobs := by
  unfold Obligations.BlitEnginesTakeJobs
  refine ⟨?enter, ?take, ?aside, ?resume⟩
  case enter =>
    intro n j s q hj hroom hturn
    rw [blitJobCreditWait_enters hj hroom hturn]
    exact nextWith_engCore q _ n _
  case take =>
    intro k n j s q hj hf
    rw [blitJobTake_takes hj hf]
    exact nextWith_engineTake q k n j
  case aside =>
    intro k n j s q hj hb
    rw [blitSetAside_lets hj hb]
    exact nextWith_mono (nextWith_engCore q _ n _) fun u ⟨he, hi, ho⟩ =>
      ⟨he, congrArg (fun i : Inst => i.core.blits) hi, by rw [State.core, hi], ho⟩
  case resume =>
    intro k n j i r l s q hi hj ha hb hf
    rw [blitResume_resumes hi hj ha hb hf]
    refine nextWith_mono (nextWith_engineTake q k n j.seq) fun u ⟨he, _, hc, ho⟩ => ⟨he, ?_, ho⟩
    rw [hc, State.core, inst_of_insts hi]

/-! Rotation and the tests of units (R20, R22, R526, R527). -/

@[simp] theorem icuLevels_safety (s : State) : s.icuLevels.safety = { s.safety with levels := s.chipLevels } := by
  obtain ⟨_, _, _, h⟩ := icuLevels_spec s; rw [h]

theorem tb_eq_testBit (v b : Nat) : tb v b = v.testBit b := by
  rw [Nat.testBit_eq_decide_div_mod_eq, tb, bit, Nat.shiftRight_eq_div_pow]; rfl

/-- A bit that was set reads as set. -/
theorem tb_orBits_same (w : Word) {b : Nat} (h : b < 32) : tb (orBits w (2 ^ b)).toNat b = true := by
  rw [tb_eq_testBit, orBits, BitVec.toNat_or, Nat.testBit_or, BitVec.toNat_ofNat, Nat.testBit_mod_two_pow, Nat.testBit_two_pow_self]
  simp [h]

/-- An event of an E source sets its pending bit, and may send a message (R537, R538). -/
theorem chipEvent_spec (s : State) (k : Nat) :
    ∃ r, Messages { s with regs := r } (s.chipEvent k)
      ∧ ∀ o, o ≠ O.ICU_C_PENDING + 4 * (k / 32) → r.get pfReset o = s.pf o := by
  unfold State.chipEvent
  dsimp only
  split
  · exact ⟨s.regs, .refl s, fun _ _ => rfl⟩
  · exact ⟨_, chipMessage_messages _ k, fun o h => pf_pfOr_other s _ h⟩

/-- State t is s with a retirement reported (R527, R536): the newest error record names the unit, and SAF_UNITS is as it was. -/
structure Reported (unit : Nat) (s t : State) : Prop where
  insts  : t.insts = s.insts
  mram   : t.mram = s.mram
  units  : t.pf O.SAF_UNITS = s.pf O.SAF_UNITS
  safety : ∃ h l, t.safety = { s.safety with head := h, recs := l }
    ∧ l.head?.map (fun r => (r.kind, r.unit)) = some (5, unit)

/-- The error record of a failed test, and source UNIT_RETIRED (R527). -/
theorem addRec_reported (s : State) (unit : Nat) : Reported unit s ((s.addRec 5 0 0xFFFF unit 0).chipEvent 18) := by
  obtain ⟨r, ⟨_, _, _, h⟩, hr⟩ := chipEvent_spec (s.addRec 5 0 0xFFFF unit 0) 18
  rw [h]
  exact ⟨rfl, rfl, hr O.SAF_UNITS (by decide), _, _, rfl, rfl⟩

/-- State t is s with a unit of kind 0 to 2 retired: its bit of SAF_UNITS is set, and the newest error record names it. -/
structure Retired (kind k : Nat) (s t : State) : Prop where
  gone   : t.unitGone kind k = true
  insts  : t.insts = s.insts
  safety : ∃ h l, t.safety = { s.safety with head := h, recs := l }
    ∧ l.head?.map (fun r => (r.kind, r.unit)) = some (5, unitWord kind k)

/-- A bit of SAF_UNITS set, and the retirement reported. -/
theorem Reported.retired {kind k b : Nat} {s t : State} (h : Reported (unitWord kind k) (s.pfOr O.SAF_UNITS (2 ^ b)) t) (hb : b < 32)
    (e : (if kind = 0 then k else if kind = 1 then 28 + k else 20 + k) = b) : Retired kind k s t := by
  refine ⟨?_, h.insts, h.safety⟩
  unfold State.unitGone
  simp only [e, h.units, pf_pfOr_same]
  exact tb_orBits_same _ hb

theorem unitFails_renderer (s : State) {k : Nat} (h : k < 20) : Retired 0 k s (s.unitFails 0 k) :=
  (addRec_reported _ _).retired (show k < 32 by omega) rfl

/-- Without an instance, no instance loses its compressors. -/
theorem unitFails_compressor {s : State} {g : Nat} (h : g < 4) (hi : s.insts = []) : Retired 1 g s (s.unitFails 1 g) := by
  have r := addRec_reported (s.pfOr O.SAF_UNITS (2 ^ (28 + g))) (unitWord 1 g)
  have e : s.unitFails 1 g = ((s.pfOr O.SAF_UNITS (2 ^ (28 + g))).testFailed 1 g).moveLines g := by
    show State.groupLost (State.moveLines _ g) g = _
    unfold State.groupLost
    rw [show ((State.testFailed _ 1 g).moveLines g).insts = [] from r.insts.trans hi]
    rfl
  rw [e]
  exact Reported.retired ⟨r.insts, r.mram, r.units, r.safety⟩ (show 28 + g < 32 by omega) rfl

theorem unitFails_blitEngine (s : State) {k : Nat} (h : k < 8) : Retired 2 k s (s.unitFails 2 k) :=
  (addRec_reported _ _).retired (show 20 + k < 32 by omega) rfl

/-- A command that leaves the instances without causes detects none. -/
theorem noCause_of_insts {s t : State} (q : s.noCause) (hi : t.insts = s.insts) (hf : t.safety.found = s.safety.found) : t.noCause :=
  ⟨hf.trans q.1, fun n => by rw [inst_congr hi]; exact q.2 n⟩

theorem Retired.noCause {kind k : Nat} {s t : State} (h : Retired kind k s t) (q : s.noCause) : t.noCause := by
  obtain ⟨_, _, e, _⟩ := h.safety
  exact noCause_of_insts q h.insts (by rw [e])

/-- What the end of a command that retired a unit leaves. -/
theorem Retired.nextWith {kind k : Nat} {s t : State} (h : Retired kind k s t) (q : s.noCause) :
    NextWith (fin t) fun u => u.unitGone kind k = true ∧ u.insts = s.insts
      ∧ u.safety.recs.head?.map (fun r => (r.kind, r.unit)) = some (5, unitWord kind k)
      ∧ u.safety.rendOut = s.safety.rendOut ∧ u.safety.testing = s.safety.testing := by
  obtain ⟨_, _, e, hr⟩ := h.safety
  refine nextWith_fin (h.noCause q) ⟨?_, (icuLevels_insts t).trans h.insts, ?_⟩
  · have hg := h.gone
    unfold State.unitGone at hg ⊢
    rw [icuLevels_pf]; exact hg
  · rw [icuLevels_safety, e]; exact ⟨hr, rfl, rfl⟩

/-- With no test requested, none runs on a unit. -/
theorem testOn_none {s : State} (h : s.safety.test = none) (kind k : Nat) : s.testOn kind k = false := by
  unfold State.testOn; rw [h]

/-- Renderer j of set g leaves and its test starts (R22, R526). -/
def rendLeaves (s : State) (g j : Nat) : State :=
  ({ s with safety := { s.safety with rendOut := s.safety.rendOut.set g j } } : State).setTesting g true

theorem rendererRotation_swaps {s : State} {g : Nat} (pass : Bool) (hr : s.boot.ready = true) (hg : g < 4) (hp : s.powered (9 + g) = true)
    (hh : (s.setHealthy g).length = 5) (ht : s.safety.testing.getD g false = false) :
    exec (.rendererRotation g pass) s = fin (s.swapOut g ((s.safety.rendOut.getD g 4 + 1) % 5) pass) := by
  show execRendererRotation g s pass = _
  unfold execRendererRotation
  simp only [hg, hr, hp, hh, ht, decide_true, Bool.and_self, Bool.not_false, if_true]

/-- With no test requested, a swap tests the set's compressor and that is all (R526). -/
theorem swapOut_untested {s : State} {g j : Nat} {pass : Bool} (h : ((rendLeaves s g j).cmpTested g pass).safety.test = none) :
    s.swapOut g j pass = (rendLeaves s g j).cmpTested g pass := by
  show (match ((rendLeaves s g j).cmpTested g pass).safety.test with
    | some t => _ | none => (rendLeaves s g j).cmpTested g pass) = _
  rw [h]

/-- The next renderer leaves, and the set's compressor passes. -/
theorem rendererRotation_pass {s : State} (q : s.noCause) {g : Nat} (hn : s.safety.test = none) (hr : s.boot.ready = true) (hg : g < 4)
    (hp : s.powered (9 + g) = true) (hh : (s.setHealthy g).length = 5) (ht : s.safety.testing.getD g false = false) :
    NextWith (exec (.rendererRotation g true) s) fun u =>
      u.safety.rendOut = s.safety.rendOut.set g ((s.safety.rendOut.getD g 4 + 1) % 5)
      ∧ u.safety.testing = s.safety.testing.set g true ∧ u.regs = s.regs ∧ u.insts = s.insts := by
  have e : ∀ t : State, t.cmpTested g true = t := fun t => by unfold State.cmpTested; rw [Bool.or_true]; rfl
  have hn' : ∀ j, ((rendLeaves s g j).cmpTested g true).safety.test = none := fun j => by rw [e]; exact hn
  rw [rendererRotation_swaps true hr hg hp hh ht, swapOut_untested (hn' _), e]
  exact nextWith_fin (noCause_of_insts q rfl rfl) ⟨by rw [icuLevels_safety]; rfl, by rw [icuLevels_safety]; rfl, icuLevels_regs _, icuLevels_insts _⟩

/-- The next renderer leaves, and the set's compressor fails. -/
theorem rendererRotation_fail {s : State} (q : s.noCause) {g : Nat} (hn : s.safety.test = none) (hr : s.boot.ready = true) (hg : g < 4)
    (hp : s.powered (9 + g) = true) (hh : (s.setHealthy g).length = 5) (ht : s.safety.testing.getD g false = false)
    (hu : s.unitGone 1 g = false) (hi : s.insts = []) :
    NextWith (exec (.rendererRotation g false) s) fun u =>
      u.safety.rendOut = s.safety.rendOut.set g ((s.safety.rendOut.getD g 4 + 1) % 5) ∧ u.unitGone 1 g = true
      ∧ u.safety.recs.head?.map (fun r => (r.kind, r.unit)) = some (5, 0x1000 + g) := by
  have r : ∀ j, Retired 1 g (rendLeaves s g j) ((rendLeaves s g j).unitFails 1 g) := fun _ => unitFails_compressor hg hi
  have e : ∀ j, (rendLeaves s g j).cmpTested g false = (rendLeaves s g j).unitFails 1 g := fun j => by
    unfold State.cmpTested; rw [show (rendLeaves s g j).unitGone 1 g = false from hu]; rfl
  have hn' : ∀ j, ((rendLeaves s g j).cmpTested g false).safety.test = none := fun j => by
    obtain ⟨_, _, hs, _⟩ := (r j).safety
    rw [e, hs]; exact hn
  rw [rendererRotation_swaps false hr hg hp hh ht, swapOut_untested (hn' _), e]
  exact nextWith_mono ((r _).nextWith (noCause_of_insts q rfl rfl)) fun _ ⟨hgone, _, hrec, hout, _⟩ => ⟨hout, hgone, hrec⟩

/-- The test of the renderer out of service ends; no test was requested. -/
theorem rendererTestDone_ends {s : State} {g k : Nat} (pass : Bool) (hn : s.safety.test = none) (ho : s.outOf g = some k)
    (hp : s.powered (9 + g) = true) (ht : s.safety.testing.getD g false = true) :
    exec (.rendererTestDone g pass) s = fin (if pass then s.setTesting (k / 5) false else (s.setTesting (k / 5) false).unitFails 0 k) := by
  show execRendererTestDone g pass s = _
  unfold execRendererTestDone State.rendTested
  simp only [ho, hp, ht, Bool.and_self, if_true, testOn_none hn, Bool.false_eq_true, if_false]

theorem rendererTestDone_pass {s : State} (q : s.noCause) {g k : Nat} (hn : s.safety.test = none) (ho : s.outOf g = some k)
    (hp : s.powered (9 + g) = true) (ht : s.safety.testing.getD g false = true) :
    NextWith (exec (.rendererTestDone g true) s) fun u => u.safety.testing = s.safety.testing.set (k / 5) false
      ∧ u.regs = s.regs ∧ u.insts = s.insts := by
  rw [rendererTestDone_ends true hn ho hp ht]
  exact nextWith_fin (noCause_of_insts q rfl rfl) ⟨by rw [icuLevels_safety]; rfl, icuLevels_regs _, icuLevels_insts _⟩

theorem rendererTestDone_fail {s : State} (q : s.noCause) {g k : Nat} (hn : s.safety.test = none) (ho : s.outOf g = some k)
    (hp : s.powered (9 + g) = true) (ht : s.safety.testing.getD g false = true) (hk : k < 20) :
    NextWith (exec (.rendererTestDone g false) s) fun u => u.safety.testing = s.safety.testing.set (k / 5) false
      ∧ u.unitGone 0 k = true ∧ u.insts = s.insts ∧ u.safety.recs.head?.map (fun r => (r.kind, r.unit)) = some (5, k) := by
  rw [rendererTestDone_ends false hn ho hp ht]
  refine nextWith_mono ((unitFails_renderer (s.setTesting (k / 5) false) hk).nextWith (noCause_of_insts q rfl rfl))
    fun u ⟨hg, hi, hr, _, ht⟩ => ⟨ht, hg, hi, ?_⟩
  rwa [unitWord, Nat.zero_mul, Nat.zero_add] at hr

/-- The turn comes to one of eight engines. -/
theorem blitTurn_lt {s : State} {k : Nat} (h : s.blitTurn = some k) : k < 8 := by
  have hk := List.mem_of_find?_eq_some h
  obtain ⟨j, _, rfl⟩ := List.mem_map.mp hk
  exact Nat.mod_lt _ (by decide)

/-- The turn of the tests passes on from blit engine k. -/
def blitPassed (s : State) (k : Nat) : State := { s with safety := { s.safety with blitNext := (k + 1) % 8 } }

/-- The next blit engine is tested; while no engine holds a job, none is set aside. -/
theorem blitEngineTest_ends {s : State} {k : Nat} (pass : Bool) (hr : s.boot.ready = true) (hk : s.blitTurn = some k)
    (hp : s.powered 0 = true) (ht : s.eng.inTest.contains k = false) (he : s.eng.blit = []) :
    exec (.blitEngineTest k pass) s = fin (if pass then blitPassed s k else (blitPassed s k).unitFails 2 k) := by
  have ha : s.blitAside k = s := by unfold State.blitAside; rw [he]; rfl
  show execBlitEngineTest k pass s = _
  unfold execBlitEngineTest
  simp only [hr, hp, hk, ht, ha, decide_true, Bool.and_self, Bool.not_false, if_true]
  rfl

theorem blitEngineTest_pass {s : State} (q : s.noCause) {k : Nat} (hr : s.boot.ready = true) (hk : s.blitTurn = some k)
    (hp : s.powered 0 = true) (ht : s.eng.inTest.contains k = false) (he : s.eng.blit = []) :
    NextWith (exec (.blitEngineTest k true) s) fun u => u.regs = s.regs ∧ u.eng = s.eng ∧ u.insts = s.insts
      ∧ u.safety.blitNext = (k + 1) % 8 := by
  rw [blitEngineTest_ends true hr hk hp ht he]
  exact nextWith_fin (noCause_of_insts q rfl rfl) ⟨icuLevels_regs _, icuLevels_eng _, icuLevels_insts _, by rw [icuLevels_safety]; rfl⟩

theorem blitEngineTest_fail {s : State} (q : s.noCause) {k : Nat} (hr : s.boot.ready = true) (hk : s.blitTurn = some k)
    (hp : s.powered 0 = true) (ht : s.eng.inTest.contains k = false) (he : s.eng.blit = []) :
    NextWith (exec (.blitEngineTest k false) s) fun u => u.unitGone 2 k = true ∧ u.insts = s.insts
      ∧ u.safety.recs.head?.map (fun r => (r.kind, r.unit)) = some (5, 0x2000 + k) := by
  rw [blitEngineTest_ends false hr hk hp ht he]
  exact nextWith_mono ((unitFails_blitEngine (blitPassed s k) (blitTurn_lt hk)).nextWith (noCause_of_insts q rfl rfl))
    fun _ ⟨hg, hi, hrec, _⟩ => ⟨hg, hi, hrec⟩

/-- An audit core is healthy (R19). -/
theorem coreOk_of_auditCores {s : State} {k : Nat} (h : s.auditCores.contains k = true) : s.coreOk k = true :=
  (List.mem_filter.mp (List.mem_of_mem_take (List.contains_iff_mem.mp h))).2

/-- The mark of an undecided audit goes from core k (R446). -/
def coreUnmarked (s : State) (k : Nat) : State :=
  { s with safety := { s.safety with coreMark := s.safety.coreMark.filter (· != k) } }

theorem coreTest_ends {s : State} {k : Nat} (pass : Bool) (hr : s.boot.ready = true) (hk : s.auditCores.contains k = true)
    (hp : s.powered (coreDomain k) = true) :
    exec (.coreTest k pass) s = fin (if pass then coreUnmarked s k else (coreUnmarked s k).unitFails 3 k) := by
  show execCoreTest k pass s = _
  unfold execCoreTest
  simp only [hr, hp, hk, Bool.and_self, if_true]
  rfl

theorem coreTest_pass {s : State} (q : s.noCause) {k : Nat} (hr : s.boot.ready = true) (hk : s.auditCores.contains k = true)
    (hp : s.powered (coreDomain k) = true) :
    NextWith (exec (.coreTest k true) s) fun u => u.regs = s.regs ∧ u.insts = s.insts ∧ u.safety.coreRet = s.safety.coreRet
      ∧ k ∉ u.safety.coreMark := by
  rw [coreTest_ends true hr hk hp]
  refine nextWith_fin (noCause_of_insts q rfl rfl) ⟨icuLevels_regs _, icuLevels_insts _, by rw [icuLevels_safety]; rfl, ?_⟩
  rw [icuLevels_safety]
  show k ∉ s.safety.coreMark.filter (· != k)
  simp

/-- A core that fails retires with an entry of the audit log (R20, R76, R527). -/
theorem coreTest_fail {s : State} (q : s.noCause) {k : Nat} (hr : s.boot.ready = true) (hk : s.auditCores.contains k = true)
    (hp : s.powered (coreDomain k) = true) :
    NextWith (exec (.coreTest k false) s) fun u => u.safety.coreRet = s.safety.coreRet + 2 ^ k ∧ u.insts = s.insts
      ∧ u.mram.log.head?.map (fun e => (e.kind, e.arg)) = some (7, k) := by
  let t : State := { coreUnmarked s k with safety := { (coreUnmarked s k).safety with coreRet := s.safety.coreRet + 2 ^ k } }
  have hok : (coreUnmarked s k).coreOk k = true := coreOk_of_auditCores hk
  have e : (coreUnmarked s k).unitFails 3 k = ((t.logEntry 7 k 0 0).addRec 5 0 0xFFFF (unitWord 3 k) 0).chipEvent 18 := by
    show (coreUnmarked s k).retireCore k 5 = _
    unfold State.retireCore
    rw [hok]; rfl
  rw [coreTest_ends false hr hk hp, if_neg Bool.false_ne_true, e]
  obtain ⟨hi, hm, _, _, _, hs, _⟩ := addRec_reported (t.logEntry 7 k 0 0) (unitWord 3 k)
  refine nextWith_fin (noCause_of_insts q hi (by rw [hs]; rfl)) ⟨?_, (icuLevels_insts _).trans hi, ?_⟩
  · rw [icuLevels_safety, hs]; rfl
  · rw [icuLevels_mram, hm]; rfl

/-- Settles O39: each test with its verdict, after the lemma that says what the row does on it. -/
theorem unitTests : Obligations.UnitTests := by
  unfold Obligations.UnitTests
  intro s q hr hn
  refine ⟨fun g hg hp hh ht => ⟨?_, ?_⟩, fun g k ho hp ht => ⟨?_, ?_⟩, fun k hk hp ht he => ⟨?_, ?_⟩, fun k hk hp => ⟨?_, ?_⟩⟩
  · exact rendererRotation_pass q hn hr hg hp hh ht
  · exact rendererRotation_fail q hn hr hg hp hh ht
  · exact rendererTestDone_pass q hn ho hp ht
  · exact rendererTestDone_fail q hn ho hp ht
  · exact blitEngineTest_pass q hr hk hp ht he
  · exact blitEngineTest_fail q hr hk hp ht he
  · exact coreTest_pass q hr hk hp
  · exact coreTest_fail q hr hk hp

/-! Check codes: what checking words can change, beside the causes that an uncorrectable word brings (R406, R411, R420). -/

/-- An offset within the ECC registers of the Pool and HBM blocks. -/
def EccReg (o : Nat) : Prop := O.POOL_ECC_CTRL ≤ o ∧ o ≤ O.HBM_ERR_INFO

/-- State t is s after words were checked: the registers, words and error records of ECC may differ, and nothing else. -/
def Checked (s t : State) : Prop :=
  ∃ r m v h l, t = { s with regs := r, mem := m, vault := v, safety := { s.safety with head := h, recs := l } }
    ∧ m.ext = s.mem.ext ∧ ∀ o, ¬ EccReg o → r.get pfReset o = s.pf o

theorem Checked.refl (s : State) : Checked s s := ⟨_, _, _, _, _, rfl, rfl, fun _ _ => rfl⟩
theorem Checked.trans {a b c : State} (h : Checked a b) (k : Checked b c) : Checked a c := by
  obtain ⟨r, m, v, x, l, rfl, he, hr⟩ := h
  obtain ⟨r', m', v', x', l', rfl, he', hr'⟩ := k
  exact ⟨r', m', v', x', l', rfl, he'.trans he, fun o ho => (hr' o ho).trans (hr o ho)⟩

/-- A word was checked, and an ECC register written after it. -/
theorem Checked.modPf {s t : State} (h : Checked s t) {o : Nat} (ho : EccReg o) (f : Word → Word) : Checked s (t.modPf o f) := by
  obtain ⟨r, m, v, x, l, rfl, he, hr⟩ := h
  exact ⟨_, m, v, x, l, rfl, he, fun p hp => (get_set_other _ _ _ (by rintro rfl; exact hp ho)).trans (hr p hp)⟩
theorem Checked.addRec {s t : State} (h : Checked s t) (a b c d e : Nat) : Checked s (t.addRec a b c d e) := by
  obtain ⟨r, m, v, x, l, rfl, he, hr⟩ := h
  exact ⟨r, m, v, _, _, rfl, he, hr⟩

theorem setBad_checked (s : State) (m : MemId) (ce ue : List Nat) : Checked s (s.setBad m ce ue) := by
  cases m <;> exact ⟨_, _, _, _, _, rfl, rfl, fun _ _ => rfl⟩

/-- The ERR registers of a memory, and its counts. -/
theorem eccReg_of_mem {o : Nat} (h : o ∈ [O.POOL_CE_COUNT, O.POOL_UE_COUNT, O.POOL_ERR_ADDR, O.POOL_ERR_INFO, O.HBM_CE_COUNT,
    O.HBM_UE_COUNT, O.HBM_ERR_ADDR_LO, O.HBM_ERR_ADDR_HI, O.HBM_ERR_INFO]) : EccReg o := by
  revert o
  unfold EccReg
  decide

theorem Checked.eccRecord {s t : State} (h : Checked s t) (x : WordAt) (ue : Bool) (f : Nat) : Checked s (t.eccRecord x ue f) := by
  unfold State.eccRecord
  dsimp only
  refine ite_rel (Checked s) h ?_
  by_cases hx : inHbm x.mem = true
  · simp only [hx, if_true]
    exact ((h.modPf (eccReg_of_mem (by decide)) _).modPf (eccReg_of_mem (by decide)) fun _ => _).modPf (eccReg_of_mem (by decide)) fun _ => _
  · simp only [hx]
    exact (h.modPf (eccReg_of_mem (by decide)) _).modPf (eccReg_of_mem (by decide)) fun _ => _

theorem Checked.eccCe {s t : State} (h : Checked s t) (x : WordAt) (f : Nat) : Checked s (t.eccCe x f) := by
  unfold State.eccCe
  have g : ∀ cnt ctrl info : Nat, EccReg cnt → EccReg info → Checked s
      (let u := (t.pfCount cnt 31 0 1).eccRecord x false f
       if (t.pf cnt).toNat < u.pfBits ctrl 31 16 && decide (u.pfBits ctrl 31 16 ≤ (u.pf cnt).toNat) then
        (u.pfOr info (2 ^ 27)).addRec 3 0 ((u.wordOwner x).getD 0xFFFF) 0xFFFF (u.errAddr x) else u) := fun cnt ctrl info hc hi =>
    have e := (h.modPf hc _).eccRecord x false f
    ite_rel (Checked s) ((e.modPf hi _).addRec _ _ _ _ _) e
  by_cases hx : inHbm x.mem = true
  · simp only [hx, if_true]
    exact g O.HBM_CE_COUNT O.HBM_ECC_CTRL O.HBM_ERR_INFO (eccReg_of_mem (by decide)) (eccReg_of_mem (by decide))
  · simp only [hx]
    exact g O.POOL_CE_COUNT O.POOL_ECC_CTRL O.POOL_ERR_INFO (eccReg_of_mem (by decide)) (eccReg_of_mem (by decide))

theorem eccUe_checked (s : State) (x : WordAt) (f : Nat) : Checked s (s.eccUe x f) := by
  unfold State.eccUe
  refine ((Checked.refl s).modPf ?_ _).eccRecord x true f
  split
  · exact eccReg_of_mem (by decide)
  · exact eccReg_of_mem (by decide)

theorem eccWord_checked (s : State) (m : MemId) (f w : Nat) : Checked s (s.eccWord m f w).2 := by
  unfold State.eccWord
  split
  · exact eccUe_checked s _ f
  · split
    · exact (setBad_checked s m _ _).eccCe _ f
    · exact .refl s

theorem eccWrite_checked (s : State) (m : MemId) (a n : Nat) : Checked s (s.eccWrite m a n) := by
  unfold State.eccWrite
  exact ite_rel (Checked s) (.refl s) (loop_rel Checked.refl Checked.trans _ _
    (fun _ s => ite_rel (Checked s) (setBad_checked s m _ _) (eccWord_checked s m _ _)) s)

theorem eccRange_checked (s : State) (m : MemId) (f a n : Nat) : Checked s (s.eccRange m f a n).2 := by
  unfold State.eccRange
  split
  · exact .refl s
  · exact loop_rel (R := fun x y : Option Nat × State => Checked x.2 y.2) (fun _ => .refl _) (fun h k => h.trans k) _ _
      (fun _ x => eccWord_checked x.2 m f _) ((none : Option Nat), s)

/-- A read of memory that meets no uncorrectable word detects no cause. -/
theorem readChecked_checked {s : State} (c : s.clean) (n : Nat) (m : MemId) (a len : Nat) : Checked s (s.readChecked n m a len) := by
  have h := eccRange_checked s m 0 a len
  have hn := (eccRange_spec s n m 0 a len).2 c
  unfold State.readChecked
  split <;> rename_i e <;> rw [e] at h hn
  · cases hn
  · exact h

/-! Effects that need no command keep the lines under way, and the registers of PF BAR0 but for those of ECC. -/

/-- State t has the lines under way of instance n in s, and the registers of s outside ECC. -/
structure Steady (n : Nat) (s t : State) : Prop where
  lines : (t.inst n).rendering = (s.inst n).rendering
  regs  : ∀ o, ¬ EccReg o → t.pf o = s.pf o

theorem Steady.refl (n : Nat) (s : State) : Steady n s s := ⟨rfl, fun _ _ => rfl⟩
theorem Steady.trans {n : Nat} {a b c : State} (h : Steady n a b) (k : Steady n b c) : Steady n a c :=
  ⟨k.lines.trans h.lines, fun o ho => (k.regs o ho).trans (h.regs o ho)⟩

theorem Steady.of_eq {n : Nat} {s t : State} (hi : t.insts = s.insts) (hr : t.regs = s.regs) : Steady n s t :=
  ⟨by rw [inst_congr hi], fun o _ => pf_congr hr o⟩
theorem Steady.setInst (n : Nat) (s : State) {i : Inst} (h : i.rendering = (s.inst n).rendering) : Steady n s (s.setInst n i) :=
  ⟨by rw [inst_setInst_same]; exact h, fun _ _ => rfl⟩
theorem Steady.modCore (n : Nat) (s : State) (f : Core → Core) : Steady n s (s.modCore n f) := .setInst n s rfl
theorem Checked.steady {s t : State} (h : Checked s t) (n : Nat) : Steady n s t := by
  obtain ⟨_, _, _, _, _, rfl, _, hr⟩ := h
  exact ⟨rfl, hr⟩

theorem readChecked_steady (s : State) (n : Nat) (m : MemId) (a len : Nat) : Steady n s (s.readChecked n m a len) := by
  have h := (eccRange_checked s m 0 a len).steady n
  unfold State.readChecked
  split <;> rename_i e <;> rw [e] at h
  · exact h.trans (.setInst n _ rfl)
  · exact h

theorem undoCopy_steady (s : State) (n r b : Nat) : Steady n s (s.undoCopy n r b) := by
  unfold State.undoCopy
  dsimp only
  split
  · exact .refl n s
  split
  · exact .refl n s
  split
  · exact .refl n s
  have h : ∀ t, Steady n s t → ∀ o : Option (List Ckpt), ∀ cut, Steady n s (match o with
      | some ring => t.setInst n { t.inst n with ring, cut }
      | none => t.setInst n ({ t.inst n with ring := [], noUndo := true, cut := true }.modReg O.BLW_RING fun w => countUp w 31 16 1)) :=
    fun t w o cut => by
      cases o with
      | some x => exact w.trans (.setInst n t rfl)
      | none => exact w.trans (.setInst n t rfl)
  have k : Steady n s (match s.blockAt n r b with
      | .pool a => s.readChecked n .pool a (regionBlock r)
      | .hbm a => s.readChecked n .hbm a (regionBlock r)
      | .leaf e l o => s.readChecked n (.leaf e l) o (regionBlock r)) := by
    split <;> exact readChecked_steady s n _ _ _
  split
  · exact h _ k (some _) _
  · exact h _ k none true

theorem undoRange_steady (s : State) (n r a len : Nat) : Steady n s (s.undoRange n r a len) := by
  unfold State.undoRange
  dsimp only
  split
  · exact .refl n s
  · exact loop_rel (Steady.refl n) Steady.trans _ _ (fun _ s => undoCopy_steady s n r _) s

theorem landVram_steady (s : State) (n stamp v : Nat) (d : List Byte) : Steady n s (s.landVram n stamp v d) := by
  have w : Steady n s (s.wrVram n v d) :=
    ((undoRange_steady s n 2 v d.length).trans ((eccWrite_checked _ .pool _ _).steady n)).trans (.of_eq rfl rfl)
  have a : ∀ (i : Inst) (f : Nat), (i.markActive f).rendering = i.rendering := fun i f => by unfold Inst.markActive; split <;> rfl
  refine w.trans (b := s.wrVram n v d) ?_
  unfold State.landVram State.noteActivity
  split
  · exact .setInst n _ (a _ _)
  · exact .refl n _

theorem landCaptures_steady (s : State) (n stamp : Nat) (caps : List CapWrite) : Steady n s (s.landCaptures n stamp caps) :=
  foldl_rel (Steady.refl n) Steady.trans _ (fun s _ => landVram_steady s n stamp _ _) caps s

theorem noteJobs_steady (s : State) (n : Nat) : Steady n s (s.noteJobs n) := by
  unfold State.noteJobs
  exact ite_rel (Steady n s) (.refl n s) (.of_eq rfl rfl)

theorem dmaPre_steady (s : State) (n k t : Nat) : Steady n s (s.dmaPre n k t) := by
  unfold State.dmaPre
  dsimp only
  split
  · split
    · exact .modCore n s _
    · exact .refl n s
  · exact .refl n s

theorem blitPre_steady (s : State) (n t : Nat) : Steady n s (s.blitPre n t) := by
  unfold State.blitPre
  split
  · exact .refl n s
  · refine ite_rel (Steady n s) ?_ (.refl n s)
    split
    · exact .modCore n s _
    · exact .refl n s

theorem effect_steady (s : State) (n t : Nat) (m : Micro) : Steady n s (s.effect n t m) := by
  unfold State.effect
  split
  · exact dmaPre_steady s n _ t
  · exact blitPre_steady s n t
  · exact ite_rel (Steady n s) (.modCore n s _) (.modCore n s _)
  · exact (Steady.modCore n s _).trans (noteJobs_steady _ n)
  · exact .modCore n s _

theorem runMicro_steady {s t : State} {n : Nat} (h : s.runMicro n = some t) : Steady n s t := by
  unfold State.runMicro State.runEffect at h
  split at h
  · cases h
  split at h
  · cases h
  split at h
  · cases h
  · obtain rfl := Option.some.inj h
    exact (((landCaptures_steady s n _ _).trans (.modCore n _ _)).trans (effect_steady _ n _ _)).trans (.modCore n _ _)

/-- The effects whose turn it is keep the lines under way. -/
theorem settle_steady (s : State) (n : Nat) : Steady n s (s.settle n) := by
  unfold State.settle
  generalize 2 * (s.core n).micro.length + 16 = f
  induction f generalizing s with
  | zero => exact .refl n s
  | succ f ih =>
    unfold State.settleFor
    split
    · split
      · rename_i h; exact (runMicro_steady h).trans (ih _)
      · exact .refl n s
    · exact .refl n s

/-! Line dispatch and completion (R28, R98, R118, R119). -/

/-- With no word corrupted, a fetch of a renderer finds nothing (R406). -/
theorem eccFetched_sound {α : Type} [DecidableEq α] {s : State} (hc : s.mem.poolCe = []) (hu : s.mem.poolUe = []) (n : Nat)
    (f : State → (Nat → Bool) → α) : s.eccFetched n f = s := by
  unfold State.eccFetched State.eccSensed State.badOf
  rw [hc, hu]
  rfl

/-- A renderer captures the first job of an instance, which joins the lines under way (R98, R118). -/
theorem captureLineOf_eq {s : State} (hc : s.mem.poolCe = []) (hu : s.mem.poolUe = []) (n k : Nat) (j : LineJob) :
    ∃ r : Rendering, r.job = j ∧ r.renderer = k ∧ s.captureLineOf n k j
      = s.setInst n { s.inst n with jobs := (s.inst n).jobs.drop 1, rendering := (s.inst n).rendering ++ [r] } := by
  unfold State.captureLineOf
  dsimp only
  rw [eccFetched_sound hc hu]
  exact ⟨_, rfl, rfl, rfl⟩

/-- A command that replaces instance n changes nothing else. -/
theorem onlyInstance_of_setInst (s : State) (n : Nat) (i : Inst) : OnlyInstance n s (s.setInst n i).icuLevels := by
  refine ⟨?_, fun m hm => (icuLevels_inst _ m).trans (inst_setInst_other s i hm)⟩
  obtain ⟨p, w, x, h⟩ := icuLevels_spec (s.setInst n i)
  exact ⟨_, p, w, x, by rw [h]; rfl⟩

theorem lineDispatch_captures {s : State} {n k : Nat} {j : LineJob} (ha : s.rendActive k = true) (hb : s.rendBusy k = false)
    (hc : s.rendCredit k = true) (hj : s.nextJob (k / 5) = some (n, j)) :
    exec (.lineDispatch n k) s = fin (s.captureLineOf n k j) := by
  show execLineDispatch n k s = _
  unfold execLineDispatch
  simp only [ha, hb, hc, hj, Bool.not_true, Bool.or_self, Bool.false_eq_true, if_false, if_true]

/-- A line under way has missed its deadline (R119). -/
def lateBy (wall : Nat) (r : Rendering) : Bool := match r.job.deadline with | some d => decide (d < wall) | none => false

/-- A late line counts for its instance and for the device (R119). -/
def countLate (s : State) (n : Nat) (late : Bool) : State :=
  if late then (s.pfCount (O.VID_LATE_LINES + 32 * n) 31 0 1).pfCount O.VID_SCH_LATE_TOTAL 31 0 1 else s

theorem countLate_insts (s : State) (n : Nat) (late : Bool) : (countLate s n late).insts = s.insts := by
  unfold countLate; split <;> rfl

theorem countLate_within (s : State) (n : Nat) (late : Bool) : Within n s (countLate s n late) :=
  ite_rel (Within n s) ((pfCount_within s n _ _ _ _).trans (pfCount_within _ n _ _ _ _)) (.refl n s)

theorem countLate_count {n : Nat} (s : State) (late : Bool) :
    ((countLate s n late).pf (O.VID_LATE_LINES + 32 * n)).toNat
      = min (2 ^ 32 - 1) ((s.pf (O.VID_LATE_LINES + 32 * n)).toNat + if late then 1 else 0) := by
  cases late with
  | false =>
    have h := (s.pf (O.VID_LATE_LINES + 32 * n)).isLt
    simp only [countLate, Bool.false_eq_true, if_false]
    omega
  | true =>
    have h : O.VID_LATE_LINES + 32 * n ≠ O.VID_SCH_LATE_TOTAL := by simp only [O.VID_LATE_LINES, O.VID_SCH_LATE_TOTAL]; omega
    simp only [countLate, if_true]
    rw [pf_pfCount_other _ _ _ _ h, pf_pfCount_same, countUp_toNat]

/-- A line of no streamed frame is done: it leaves, its status waits for its place, a late one counts, and the effects whose turn it is
follow (R119). -/
theorem lineDone_unstreamed {s : State} {n : Nat} {r : Rendering} (k : Nat) (h : ∀ b ∈ (s.inst n).builds, b.frame ≠ r.job.frame) :
    ∃ i : Inst, i.rendering = (s.inst n).rendering.drop 1 ∧ i.found = (s.inst n).found
      ∧ s.lineDone n k r = (countLate (s.setInst n i) n (lateBy s.wall r)).settle n := by
  have hb : ((s.inst n).builds.find? fun b => b.frame == r.job.frame && (s.inst n).streams b.frame) = none := by
    rw [List.find?_eq_none]
    intro b hm
    simp [h b hm]
  unfold State.lineDone
  simp only [hb, Option.isSome_none, Bool.false_and, Bool.false_eq_true, if_false]
  refine ⟨_, ?_, ?_, rfl⟩
  · exact ite_rel (fun i : Inst => i.rendering = (s.inst n).rendering.drop 1) rfl rfl
  · exact ite_rel (fun i : Inst => i.found = (s.inst n).found) rfl rfl

/-- The renderer of the first instance's first line finishes it. -/
theorem lineRenderDone_finishes {s : State} {n k : Nat} {i : Inst} {r : Rendering} {l : List Rendering} {m : Map Inst}
    (hi : s.insts = (n, i) :: m) (hr : i.rendering = r :: l) (hk : r.renderer = k) :
    exec (.lineRenderDone k) s = fin (s.lineDone n k r) := by
  show execLineRenderDone k s = _
  unfold execLineRenderDone
  simp only [hi, List.find?_cons, hr, hk, beq_self_eq_true]

theorem lineRenderDone_leaves {s : State} (q : s.noCause) (c : s.clean) {n k : Nat} (hn : n < 512) {i : Inst} {r : Rendering}
    {l : List Rendering} {m : Map Inst} (hi : s.insts = (n, i) :: m) (hr : i.rendering = r :: l) (hk : r.renderer = k)
    (hb : ∀ b ∈ i.builds, b.frame ≠ r.job.frame) :
    NextWith (exec (.lineRenderDone k) s) fun u => (u.inst n).rendering = l ∧ (∀ m, m ≠ n → u.inst m = s.inst m)
      ∧ (u.pf (O.VID_LATE_LINES + 32 * n)).toNat
        = min (2 ^ 32 - 1) ((s.pf (O.VID_LATE_LINES + 32 * n)).toNat + if lateBy s.wall r then 1 else 0) := by
  have hs := inst_of_insts hi
  obtain ⟨j, hl, hf, e⟩ := lineDone_unstreamed (s := s) (n := n) k (by rwa [hs])
  rw [hs, hr] at hl
  have w := (countLate_within (s.setInst n j) n (lateBy s.wall r)).trans (settle_within _ n)
  have y := settle_steady (countLate (s.setInst n j) n (lateBy s.wall r)) n
  have q1 : (s.setInst n j).noCause := noCause_setInst q (hf.trans (q.2 n))
  have c1 : (s.setInst n j).clean := clean_congr rfl rfl c
  have ho : ¬ EccReg (O.VID_LATE_LINES + 32 * n) := by
    unfold EccReg; simp only [O.VID_LATE_LINES, O.POOL_ECC_CTRL, O.HBM_ERR_INFO]; omega
  rw [lineRenderDone_finishes hi hr hk, e]
  refine nextWith_fin (w.noCause c1 q1) ⟨?_, fun m hm => ?_, ?_⟩
  · rw [icuLevels_inst, y.lines, inst_congr (countLate_insts _ n _), inst_setInst_same, hl]; rfl
  · rw [icuLevels_inst, w.others m hm, inst_setInst_other s j hm]
  · rw [icuLevels_pf, y.regs _ ho, countLate_count]; rfl

/-- Settles O38: a dispatch only moves the first job to the lines under way, and the effects that follow a line's end keep both the
lines and the counts of late ones. -/
theorem linesAreRendered : Obligations.LinesAreRendered := by
  unfold Obligations.LinesAreRendered
  refine ⟨?dispatch, ?done⟩
  case dispatch =>
    intro n k j s q ha hb hc hj hce hue
    obtain ⟨r, hrj, hrk, e⟩ := captureLineOf_eq hce hue n k j
    rw [lineDispatch_captures ha hb hc hj, e]
    refine nextWith_fin (noCause_setInst q (q.2 n)) ⟨onlyInstance_of_setInst s n _, ?_, ⟨r, ?_, hrj, hrk⟩, ?_⟩
    · rw [icuLevels_inst, inst_setInst_same]
    · rw [icuLevels_inst, inst_setInst_same]
    · rw [State.core, icuLevels_inst, inst_setInst_same]; rfl
  case done =>
    intro n k i r l m s q c hn hi hr hk hb
    refine nextWith_mono (lineRenderDone_leaves q c hn hi hr hk hb) fun u ⟨hl, ho, hp⟩ => ⟨hl, ho, ?_⟩
    rw [hp, lateBy]
    cases r.job.deadline with
    | none => rfl
    | some d => simp only [decide_eq_true_eq]

/-! What a move of an instance between rungs leaves beside the instance (R449, R453). -/

/-- What lies beside the instances in t is as in s, but for records and registers of ECC, leaves, memories and messages. -/
structure Beside (s t : State) : Prop where
  safety : ∃ h l, t.safety = { s.safety with head := h, recs := l }
  regs   : ∀ o, ¬ EccReg o → t.pf o = s.pf o
  ext    : t.mem.ext = s.mem.ext
  wall   : t.wall = s.wall

theorem Beside.refl (s : State) : Beside s s := ⟨⟨_, _, rfl⟩, fun _ _ => rfl, rfl, rfl⟩
theorem Beside.trans {a b c : State} (h : Beside a b) (k : Beside b c) : Beside a c := by
  obtain ⟨x, l, hs⟩ := h.safety
  obtain ⟨x', l', ks⟩ := k.safety
  exact ⟨⟨x', l', by rw [ks, hs]⟩, fun o ho => (k.regs o ho).trans (h.regs o ho), k.ext.trans h.ext, k.wall.trans h.wall⟩

/-- No instance differs either. -/
structure Still (s t : State) : Prop extends Beside s t where
  insts : t.insts = s.insts

theorem Still.refl (s : State) : Still s s := ⟨.refl s, rfl⟩
theorem Still.trans {a b c : State} (h : Still a b) (k : Still b c) : Still a c :=
  ⟨h.toBeside.trans k.toBeside, k.insts.trans h.insts⟩
theorem Still.of_eq {s t : State} (hi : t.insts = s.insts) (hs : t.safety = s.safety) (hr : t.regs = s.regs) (hm : t.mem.ext = s.mem.ext)
    (hw : t.wall = s.wall) : Still s t :=
  ⟨⟨⟨_, _, hs⟩, fun o _ => pf_congr hr o, hm, hw⟩, hi⟩
/-- The bytes of Pool and HBM may differ, the work that engines hold, and the free values drawn. -/
theorem Still.memories {s t : State} (h : Still s t) (p b : Map Byte) (e : EngineSt) (f : Nat) :
    Still s { t with pool := p, hbm := b, eng := e, free := f } :=
  ⟨⟨h.safety, h.regs, h.ext, h.wall⟩, h.insts⟩
theorem Checked.still {s t : State} (h : Checked s t) : Still s t := by
  obtain ⟨_, _, _, _, _, rfl, he, hr⟩ := h
  exact ⟨⟨⟨_, _, rfl⟩, hr, he, rfl⟩, rfl⟩

/-- State t is s with i for instance n, and no other instance changed. -/
structure Moved (n : Nat) (s t : State) (i : Inst) : Prop extends Beside s t where
  inst   : t.inst n = i
  others : t.insts.del n = s.insts.del n

theorem Moved.trans {n : Nat} {a b c : State} {i j : Inst} (h : Moved n a b i) (k : Moved n b c j) : Moved n a c j :=
  ⟨h.toBeside.trans k.toBeside, k.inst, k.others.trans h.others⟩
theorem Still.moved {s t : State} (h : Still s t) (n : Nat) : Moved n s t (s.inst n) :=
  ⟨h.toBeside, inst_congr h.insts n, by rw [h.insts]⟩
theorem Moved.still {n : Nat} {s t u : State} {i : Inst} (h : Moved n s t i) (k : Still t u) : Moved n s u i :=
  ⟨h.toBeside.trans k.toBeside, (inst_congr k.insts n).trans h.inst, by rw [k.insts]; exact h.others⟩

/-- A write leaves the other entries of a table, in their order. -/
theorem del_set {α : Type} [DecidableEq α] (d : Nat → α) (m : Map α) (k : Nat) (v : α) : (m.set d k v).del k = m.del k := by
  unfold Map.set
  split
  · simp [Map.del, List.filter_filter]
  · unfold Map.del
    induction m with
    | nil => simp [Map.put]
    | cons e r ih =>
      obtain ⟨a, x⟩ := e
      simp only [Map.put]
      split
      · simp
      · split
        · rename_i h; simp [h]
        · simp only [List.filter_cons, ih]

theorem moved_setInst (s : State) (n : Nat) (i : Inst) : Moved n s (s.setInst n i) i :=
  ⟨⟨⟨_, _, rfl⟩, fun _ _ => rfl, rfl, rfl⟩, inst_setInst_same s n i, del_set (fun _ => ({} : Inst)) s.insts n i⟩
theorem Moved.setInst {n : Nat} {s t : State} {i : Inst} (h : Moved n s t i) (j : Inst) : Moved n s (t.setInst n j) j :=
  h.trans (moved_setInst t n j)
theorem Moved.modInst {n : Nat} {s t : State} {i : Inst} (h : Moved n s t i) (f : Inst → Inst) : Moved n s (t.modInst n f) (f i) := by
  rw [← h.inst]; exact h.setInst _

theorem Moved.inst_other {n : Nat} {s t : State} {i : Inst} (h : Moved n s t i) {m : Nat} (hm : m ≠ n) : t.inst m = s.inst m := by
  unfold State.inst
  rw [← get_del_other _ t.insts hm, h.others, get_del_other _ s.insts hm]

theorem Moved.noCause {n : Nat} {s t : State} {i : Inst} (h : Moved n s t i) (q : s.noCause) (hf : i.found = (s.inst n).found) :
    t.noCause := by
  obtain ⟨_, _, hs⟩ := h.safety
  refine ⟨by rw [hs]; exact q.1, fun m => ?_⟩
  by_cases hm : m = n
  · rw [hm, h.inst, hf]; exact q.2 n
  · rw [h.inst_other hm]; exact q.2 m

/-! Where an instance may stand, and its shelf, do not depend on its rung. -/

/-- Where an instance may stand depends on the other instances, on the cores and on its count of slots (R17, R18). -/
theorem Moved.placeFor {n : Nat} {s t : State} {i : Inst} (h : Moved n s t i) (ha : i.adm = (s.inst n).adm)
    (hp : i.place = (s.inst n).place) : t.placeFor n = s.placeFor n := by
  obtain ⟨_, _, hs⟩ := h.safety
  have hc : t.instCores = s.instCores := by
    unfold State.instCores State.auditCores State.coresOk State.coreOk; rw [hs]
  have ht : ∀ k, t.testOn 3 k = s.testOn 3 k := fun k => by unfold State.testOn; rw [hs]
  have ho : (t.insts.filter fun e => e.1 != n) = s.insts.filter fun e => e.1 != n := h.others
  have hf : ∀ p, t.placeFits n p = s.placeFits n p := fun p => by
    unfold State.placeFits Inst.slotsAt
    simp only [hc, ht, ho, h.inst, ha]
  unfold State.placeFor
  simp only [hc, hf, h.inst, hp]

/-- The shelf of an instance is given by BLW_SHELF, its span, and the Extent Table (R456). -/
theorem Moved.shelfOkExtents {n : Nat} {s t : State} {i : Inst} (h : Moved n s t i) (ha : i.adm = (s.inst n).adm)
    (hr : i.regs = (s.inst n).regs) : t.shelfOkExtents n = s.shelfOkExtents n := by
  have hb : i.rbits O.BLW_SHELF 16 0 = (s.inst n).rbits O.BLW_SHELF 16 0 := by unfold Inst.rbits Inst.reg; rw [hr]
  have hw : t.workSize n = s.workSize n := by unfold State.workSize; rw [h.inst, ha]
  have hp : ∀ o, O.EXT_SPAN_FIRST ≤ o → t.pf o = s.pf o := fun o ho =>
    h.regs o (by unfold EccReg; simp only [O.EXT_SPAN_FIRST, O.POOL_ECC_CTRL, O.HBM_ERR_INFO] at *; omega)
  have hs : t.span n = s.span n := by
    unfold State.span State.pfBits
    rw [hp _ (Nat.le_add_right _ _), hp _ (by simp only [O.EXT_SPAN_FIRST, O.EXT_SPAN_COUNT]; omega)]
  have he : ∀ e, t.extEntry e = s.extEntry e := fun e => by unfold State.extEntry; rw [h.ext]
  unfold State.shelfOkExtents State.shelfLen
  simp only [h.inst, hb, hw, hs, he]

/-! The end of a rung command (R451, R460). -/

theorem instReg_setReg_same (i : Inst) (o : Nat) (w : Word) : (i.setReg o w).reg o = w := get_set_same _ _ _ _

/-- A rung command that may act runs, and is the one asked for. -/
theorem rungRuns_running {s : State} {n op : Nat} {c : RungCmd} (h : s.rungRuns n op = some c) :
    (s.inst n).running = some c ∧ c.op = op := by
  unfold State.rungRuns at h
  split at h
  · rename_i d hd
    split at h
    · rename_i hx
      obtain rfl := Option.some.inj h
      simp only [Bool.and_eq_true, decide_eq_true_eq] at hx
      exact ⟨hd, hx.1.1.1⟩
    · cases h
  · cases h

/-- A rung command from a register ends: LAST_OP and RESULT tell of it, and the next may come. -/
theorem endCmd_eq {s : State} {n r : Nat} {c : RungCmd} (h : (s.inst n).running = some c) (ht : c.tag = none)
    (hop : 1 ≤ c.op ∧ c.op ≤ 9) (hr : r ≠ 15) : s.endCmd n r
      = s.setInst n (({ s.inst n with running := none } : Inst).setReg O.BLW_CMD_STATUS (BitVec.ofNat 32 (16 * c.op + r))) := by
  have hno : (decide (c.op = 0) || decide (9 < c.op) || decide (r = 15)) = false := by
    simp only [Bool.or_eq_false_iff, decide_eq_false_iff_not]; omega
  unfold State.endCmd Inst.noteCmd
  simp only [h, ht, hno, Bool.false_eq_true, if_false, Nat.mul_comm c.op 16]

/-- The command of code `op` has ended with result r, and no other instance has changed. -/
def RungEnded (n op r : Nat) (s u : State) : Prop :=
  (u.inst n).running = none ∧ (u.inst n).reg O.BLW_CMD_STATUS = BitVec.ofNat 32 (16 * op + r) ∧ ∀ m, m ≠ n → u.inst m = s.inst m

/-- What a rung command leaves that ends after its effects have made i of the instance. -/
theorem rungEnded_of_moved {s t : State} {n op r : Nat} {c : RungCmd} {i : Inst} (q : s.noCause) (hc : s.rungRuns n op = some c)
    (ht : c.tag = none) (w : Moved n s t i) (hf : i.found = (s.inst n).found) (hn : i.running = (s.inst n).running)
    (hop : 1 ≤ op ∧ op ≤ 9 := by decide) (hr : r ≠ 15 := by decide) :
    NextWith (fin (t.endCmd n r)) fun u => RungEnded n op r s u
      ∧ u.inst n = ({ i with running := none } : Inst).setReg O.BLW_CMD_STATUS (BitVec.ofNat 32 (16 * op + r)) := by
  obtain ⟨hrun, rfl⟩ := rungRuns_running hc
  have e := endCmd_eq (s := t) (n := n) (r := r) (by rw [w.inst, hn, hrun]) ht hop hr
  rw [w.inst] at e
  have k := w.setInst (({ i with running := none } : Inst).setReg O.BLW_CMD_STATUS (BitVec.ofNat 32 (16 * c.op + r)))
  have hi : ((t.setInst n (({ i with running := none } : Inst).setReg O.BLW_CMD_STATUS (BitVec.ofNat 32 (16 * c.op + r)))).icuLevels.inst n)
      = _ := (icuLevels_inst _ n).trans k.inst
  rw [e]
  refine nextWith_fin (k.noCause q hf) ⟨⟨?_, ?_, fun m hm => (icuLevels_inst _ m).trans (k.inst_other hm)⟩, hi⟩
  · rw [hi]; rfl
  · rw [hi, instReg_setReg_same]

/-! The steps of a move down (R453). -/

theorem intoBenched_moved (s : State) (n : Nat) : Moved n s (s.intoBenched n) { s.inst n with rung := .benched, replay := [] } := by
  obtain ⟨_, _, _, _, _, e, he, hr⟩ := eccWrite_checked s .pool (0x6880000 + n * 0x8000 + 0x6000) 8192
  unfold State.intoBenched
  dsimp only
  rw [e]
  exact ⟨⟨⟨_, _, rfl⟩, hr, he, rfl⟩, get_set_same _ _ _ _, del_set (fun _ => ({} : Inst)) s.insts n _⟩

theorem intoBenched_clean {s : State} (c : s.clean) (n : Nat) : (s.intoBenched n).clean :=
  clean_congr (s := s.eccWrite .pool (0x6880000 + n * 0x8000 + 0x6000) 8192) rfl rfl ((eccWrite_within s n _ _ _).clean c)

/-- The state with the words checked that a move into Parked reads and writes (R406, R453). -/
def parkChecked (s : State) (n : Nat) : State :=
  let r := s.readChecked n .pool (s.vramAt n 0) (s.quota n)
  (r.eccWrite .hbm (s.parkBase n) (s.parkBytes n (s.inst n).released).length).eccWrite .pool (s.vramAt n 0) (r.quota n)

theorem parkChecked_still {s : State} (c : s.clean) (n : Nat) : Still s (parkChecked s n) :=
  (((readChecked_checked c n _ _ _).trans (eccWrite_checked _ _ _ _)).trans (eccWrite_checked _ _ _ _)).still

theorem intoParked_moved {s : State} (c : s.clean) (n : Nat) : Moved n s (s.intoParked n) { s.inst n with rung := .parked } :=
  (((parkChecked_still c n).memories _ _ _ _).moved n).modInst fun i => { i with rung := .parked }

theorem intoParked_clean {s : State} (c : s.clean) (n : Nat) : (s.intoParked n).clean :=
  clean_congr (s := parkChecked s n) rfl rfl
    ((((readChecked_within s n _ _ _).trans (eccWrite_within _ n _ _ _)).trans (eccWrite_within _ n _ _ _)).clean c)

/-! The steps of a move up (R453). -/

theorem fromParked_moved {s : State} (c : s.clean) (n : Nat) : Moved n s (s.fromParked n) { s.inst n with rung := .benched } := by
  have h : Still s ((s.readChecked n .hbm (s.parkBase n) 524288).eccWrite .pool ((s.readChecked n .hbm (s.parkBase n) 524288).vramAt n 0)
      ((s.readChecked n .hbm (s.parkBase n) 524288).quota n)) :=
    ((readChecked_checked c n _ _ _).trans (eccWrite_checked _ _ _ _)).still
  exact ((h.memories _ _ _ _).moved n).modInst fun i => { i with rung := .benched }

/-- With its checkpoint taken, an instance only takes its place (R18, R450). -/
theorem fromBenched_moved {s : State} {n : Nat} (h : (s.inst n).ckptDone = true) :
    Moved n s (s.fromBenched n) { s.inst n with rung := .held, place := s.placeFor n } := by
  have m := moved_setInst s n { s.inst n with rung := .held, place := s.placeFor n }
  have hc : ((s.setInst n { s.inst n with rung := .held, place := s.placeFor n }).inst n).ckptDone = true := by rw [m.inst]; exact h
  have e : s.fromBenched n = s.setInst n { s.inst n with rung := .held, place := s.placeFor n } := if_pos hc
  rw [e]
  exact m

/-- The instance as it enters Playing (R108, R459). -/
def Inst.entered (i : Inst) (wall : Nat) : Inst :=
  ({ i with rung := .playing, faultHeld := false, anchor := some (wall, i.released), reanchor := false, expired := false }
    : Inst).resetWhistle

/-- With no effect queued, entry to Playing changes the instance alone (R108, R459). -/
theorem enterPlaying_moved {s : State} {n : Nat} (h : (s.core n).micro = []) :
    Moved n s (s.enterPlaying n) (Inst.entered (s.inst n) s.wall) := by
  have m := moved_setInst s n (Inst.entered (s.inst n) s.wall)
  have hm : ((s.setInst n (Inst.entered (s.inst n) s.wall)).core n).micro = [] := by unfold State.core; rw [m.inst]; exact h
  have e : s.enterPlaying n = s.setInst n (Inst.entered (s.inst n) s.wall) := settle_idle hm
  rw [e]
  exact m

/-! How a move goes step by step (R453). -/

/-- The steps up from Parked, to the rung of a code. -/
def climb (s : State) (n t : Nat) : State :=
  let s := if (s.inst n).rung = .parked && t < 3 then s.fromParked n else s
  let s := if (s.inst n).rung = .benched && t < 2 then s.fromBenched n else s
  if (s.inst n).rung = .held && t = 0 then s.enterPlaying n else s

theorem raiseTo_eq_climb {s : State} {n : Nat} (h : (s.inst n).rung ≠ .shelved) (target : Rung) (shelf : Option (List Byte)) :
    s.raiseTo n target shelf = .ok (climb s n (rungCode target)) := by
  unfold State.raiseTo
  simp only [h, decide_false, Bool.false_and, Bool.false_eq_true, if_false]
  rfl

/-- From Shelved the shelf comes first (R458). -/
theorem raiseTo_shelved {s t : State} {n : Nat} (h : (s.inst n).rung = .shelved) {target : Rung} (ht : rungCode target < 4)
    {shelf : Option (List Byte)} (hf : s.fromShelved n shelf = .ok t) :
    s.raiseTo n target shelf = .ok (climb t n (rungCode target)) := by
  unfold State.raiseTo
  simp only [h, ht, decide_true, Bool.and_self, if_true, hf]
  rfl
theorem raiseTo_shelved_error {s : State} {n r : Nat} (h : (s.inst n).rung = .shelved) {target : Rung} (ht : rungCode target < 4)
    {shelf : Option (List Byte)} (hf : s.fromShelved n shelf = .error r) : s.raiseTo n target shelf = .error r := by
  unfold State.raiseTo
  simp only [h, ht, decide_true, Bool.and_self, if_true, hf]

theorem climb_held {s : State} {n : Nat} (h : (s.inst n).rung = .held) : climb s n 0 = s.enterPlaying n := by
  simp [climb, h]
theorem climb_parked_parked {s : State} {n : Nat} (h : (s.inst n).rung = .parked) : climb s n 3 = s := by
  simp [climb, h]
theorem climb_benched {s : State} {n : Nat} (h : (s.inst n).rung = .benched) (hc : (s.inst n).ckptDone = true) :
    climb s n 0 = climb (s.fromBenched n) n 0 := by
  have hb := congrArg Inst.rung (fromBenched_moved hc).inst
  simp only at hb
  simp [climb, h, hb]
theorem climb_parked {s : State} (c : s.clean) {n t : Nat} (h : (s.inst n).rung = .parked) (ht : t < 3) :
    climb s n t = climb (s.fromParked n) n t := by
  have hb := congrArg Inst.rung (fromParked_moved c n).inst
  simp only at hb
  simp [climb, h, hb, ht]
theorem climb_benched_benched {s : State} {n : Nat} (h : (s.inst n).rung = .benched) : climb s n 2 = s := by
  simp [climb, h]

/-- From Held to Playing (R450). -/
theorem climb_held_moved {s : State} {n : Nat} (h : (s.inst n).rung = .held) (hm : (s.core n).micro = []) :
    Moved n s (climb s n 0) (Inst.entered (s.inst n) s.wall) := by
  rw [climb_held h]
  exact enterPlaying_moved hm

/-- From Benched to Playing: the instance takes a place (R18, R450). -/
theorem climb_benched_moved {s : State} {n : Nat} (h : (s.inst n).rung = .benched) (hc : (s.inst n).ckptDone = true)
    (hm : (s.core n).micro = []) :
    Moved n s (climb s n 0) (Inst.entered { s.inst n with rung := .held, place := s.placeFor n } s.wall) := by
  have b := fromBenched_moved hc
  have p := climb_held_moved (s := s.fromBenched n) (n := n) (by rw [b.inst]) (by unfold State.core; rw [b.inst]; exact hm)
  rw [b.inst, b.wall] at p
  rw [climb_benched h hc]
  exact b.trans p

/-- From Parked to Playing. -/
theorem climb_parked_moved {s : State} (c : s.clean) {n : Nat} (h : (s.inst n).rung = .parked) (hc : (s.inst n).ckptDone = true)
    (hm : (s.core n).micro = []) :
    Moved n s (climb s n 0) (Inst.entered { s.inst n with rung := .held, place := s.placeFor n } s.wall) := by
  have b := fromParked_moved c n
  have p := climb_benched_moved (s := s.fromParked n) (n := n) (by rw [b.inst]) (by rw [b.inst]; exact hc)
    (by unfold State.core; rw [b.inst]; exact hm)
  rw [b.inst, b.wall, b.placeFor rfl rfl] at p
  rw [climb_parked c h (by decide)]
  exact b.trans p

theorem lowerTo_held {s : State} {n : Nat} {target : Rung} (h : (s.inst n).rung = .held) (ht : 2 ≤ rungCode target) :
    s.lowerTo n target = (s.intoBenched n).lowerTo n target := by
  have hb := congrArg Inst.rung (intoBenched_moved s n).inst
  simp only at hb
  unfold State.lowerTo
  simp [h, hb, ht]
theorem lowerTo_benched {s : State} (c : s.clean) {n : Nat} {target : Rung} (h : (s.inst n).rung = .benched) (ht : 3 ≤ rungCode target) :
    s.lowerTo n target = (s.intoParked n).lowerTo n target := by
  have hb := congrArg Inst.rung (intoParked_moved c n).inst
  simp only at hb
  unfold State.lowerTo
  simp [h, hb, ht]
theorem lowerTo_benched_benched {s : State} {n : Nat} (h : (s.inst n).rung = .benched) : s.lowerTo n .benched = (s, 0) := by
  unfold State.lowerTo
  simp [h, rungCode]
theorem lowerTo_parked_parked {s : State} {n : Nat} (h : (s.inst n).rung = .parked) : s.lowerTo n .parked = (s, 0) := by
  unfold State.lowerTo
  simp [h, rungCode]
theorem lowerTo_parked_shelved {s : State} {n : Nat} (h : (s.inst n).rung = .parked) (hx : s.shelfOkExtents n = true) :
    s.lowerTo n .shelved = (s.intoShelved n, 0) := by
  unfold State.lowerTo
  simp [h, hx, rungCode]

/-! Checkpoints, jobs and completions of an instance. -/

theorem takeCkpt_inst (s : State) (n frame : Nat) : ∃ r nu cut g, Moved n s (s.takeCkpt n frame)
    { s.inst n with ring := r, noUndo := nu, cut := cut, hlog := [], ckptDone := true, regs := g } := by
  unfold State.takeCkpt
  dsimp only
  split <;> exact ⟨_, _, _, _, moved_setInst s n _⟩

theorem noteJobs_still (s : State) (n : Nat) : Still s (s.noteJobs n) := by
  unfold State.noteJobs
  exact ite_rel (Still s) (.refl s) (.of_eq rfl rfl rfl rfl rfl)

/-- The jobs of a core wait for a place anew (R212, R230). -/
def Core.jobsDropped (c : Core) : Core := { c with blits := c.blits.map fun j => { j with phase := .waiting, ownCred := false } }

theorem dropBlits_moved (s : State) (n : Nat) : Moved n s (s.dropBlits n) { s.inst n with core := Core.jobsDropped (s.core n) } := by
  unfold State.dropBlits
  have e : Still s { s with eng := { s.eng with
      blit := s.eng.blit.filter fun e => e.2.1 != n
      blitQ := s.eng.blitQ.filter fun q => q.1 != n
      blitWait := s.eng.blitWait.filter fun q => q.1 != n } } := .of_eq rfl rfl rfl rfl rfl
  exact ((e.moved n).modInst fun i => { i with core := Core.jobsDropped i.core }).still (noteJobs_still _ n)

/-- Of instance n, its VF alone may differ. -/
def VfMoved (n : Nat) (s t : State) : Prop := ∃ v, Moved n s t { s.inst n with vf := v }

theorem VfMoved.refl (n : Nat) (s : State) : VfMoved n s s := ⟨_, (Still.refl s).moved n⟩
theorem VfMoved.trans {n : Nat} {a b c : State} (h : VfMoved n a b) (k : VfMoved n b c) : VfMoved n a c := by
  obtain ⟨v, h⟩ := h
  obtain ⟨w, k⟩ := k
  rw [h.inst] at k
  exact ⟨w, h.trans k⟩
theorem modVf_moved (s : State) (n : Nat) (f : Vf → Vf) : VfMoved n s (s.modVf n f) := ⟨_, moved_setInst s n _⟩
theorem send_vfMoved (s : State) (n : Nat) (x : Sent) : VfMoved n s (s.send x) :=
  ⟨_, (Still.of_eq rfl rfl rfl rfl rfl : Still s (s.send x)).moved n⟩

theorem vfMsix_moved (s : State) (n v : Nat) : VfMoved n s (s.vfMsix n v) := by
  unfold State.vfMsix
  exact ite_rel (VfMoved n s) (.refl n s) (ite_rel (VfMoved n s) (modVf_moved s n _) (send_vfMoved s n _))

theorem complIrq_moved (s : State) (n : Nat) : VfMoved n s (s.complIrq n) := by
  unfold State.complIrq
  exact ite_rel (VfMoved n s) ((modVf_moved s n _).trans (vfMsix_moved _ n _)) (modVf_moved s n _)

theorem complete_moved {s t : State} {n k st tag f len marks aux : Nat} (h : s.complete n k st tag f len marks aux = some t) :
    VfMoved n s t := by
  unfold State.complete at h
  dsimp only at h
  split at h
  · cases h
  · obtain rfl := Option.some.inj h
    exact ((send_vfMoved s n _).trans (modVf_moved _ n _)).trans (complIrq_moved _ n)

theorem inputStatus_moved (s : State) (n status : Nat) (e : List Byte) : VfMoved n s (s.inputStatus n status e) := by
  unfold State.inputStatus State.completeOrLose
  split
  · rename_i h; exact complete_moved h
  · exact modVf_moved s n _

/-- Input packets that are dropped leave the instance's input and its VF changed (R475). -/
theorem dropInputs_moved (s : State) (n below : Nat) :
    ∃ l v, Moved n s (s.dropInputs n below) { s.inst n with held := l, vf := v } := by
  have m := moved_setInst s n { s.inst n with held := (s.inst n).held.filter fun h => decide (below ≤ h.frame) }
  obtain ⟨v, k⟩ := foldl_rel (VfMoved.refl n) VfMoved.trans (fun s (h : HeldInput) => s.inputStatus n 2 h.data)
    (fun s h => inputStatus_moved s n 2 h.data) ((s.inst n).held.filter fun h => decide (h.frame < below)) _
  rw [m.inst] at k
  exact ⟨_, v, m.trans k⟩

theorem dropPackets_moved (s : State) (n : Nat) (count : Bool) (from' : Nat) :
    ∃ p g, Moved n s (s.dropPackets n count from') { s.inst n with packets := p, regs := g } :=
  ⟨_, _, moved_setInst s n _⟩

/-! Shelving (R426, R453, R456). -/

theorem writeBack_still (s : State) (x : Leaf) : Still s (s.writeBack x) := by
  unfold State.writeBack
  exact ite_rel (Still s) (.refl s) (.of_eq rfl rfl rfl rfl rfl)

theorem flushOwned_still (s : State) (n : Nat) : Still s (s.flushOwned n) :=
  foldl_rel Still.refl Still.trans _ writeBack_still _ s

theorem keepCrcs_still (s : State) (x : Leaf) : Still s (s.keepCrcs x) := by
  unfold State.keepCrcs
  refine ite_rel (Still s) (.refl s) (loop_rel Still.refl Still.trans _ _ (fun k t => ?_) s)
  exact .of_eq rfl rfl rfl rfl rfl

theorem dropExtent_still (s : State) (e : Nat) (all : Bool) : Still s (s.dropExtent e all) := by
  refine (foldl_rel Still.refl Still.trans (fun s x => s.keepCrcs x) keepCrcs_still
    (s.mem.leaves.filter fun x => x.extent == e && (all || !x.dirty)) s).trans ?_
  exact .of_eq rfl rfl rfl rfl rfl

theorem sendShelf_still (s : State) (n : Nat) (img : List Byte) : Still s (s.sendShelf n img) := by
  unfold State.sendShelf
  refine loop_rel Still.refl Still.trans _ _ (fun k t => (dropExtent_still t ((s.inst n).rbits O.BLW_SHELF 16 0 + k) true).trans ?_) s
  exact .of_eq rfl rfl rfl rfl rfl

/-- The state with the words checked that a move into Shelved reads (R406, R456). -/
def shelfChecked (s : State) (n : Nat) : State :=
  ((s.readChecked n .hbm (s.parkBase n) 524288).readChecked n .hbm (s.inst n).adm.workB (s.workSize n)).readChecked n .hbm
    (s.echoBase n) 262144

theorem shelfChecked_still {s : State} (c : s.clean) (n : Nat) : Still s (shelfChecked s n) :=
  have c1 := (readChecked_within s n .hbm (s.parkBase n) 524288).clean c
  have c2 := (readChecked_within _ n .hbm (s.inst n).adm.workB (s.workSize n)).clean c1
  (((readChecked_checked c n _ _ _).trans (readChecked_checked c1 n _ _ _)).trans (readChecked_checked c2 n _ _ _)).still

theorem intoShelved_moved {s : State} (c : s.clean) (n : Nat) : ∃ p g, Moved n s (s.intoShelved n)
    { s.inst n with packets := p, regs := g, rung := .shelved, shelfOk := true, ring := [], noUndo := false, cut := false, replay := [] } := by
  have h := (shelfChecked_still c n).moved n
  obtain ⟨p, g, d⟩ := dropPackets_moved (shelfChecked s n) n true 0
  rw [h.inst] at d
  exact ⟨p, g, (((h.trans d).still (flushOwned_still _ n)).still (sendShelf_still _ n _)).modInst fun i =>
    { i with rung := .shelved, shelfOk := true, ring := [], noUndo := false, cut := false, replay := [] }⟩

/-! Restores (R436, R440, R458). -/

theorem putBlock_still (s : State) (n r b : Nat) (l : List (Nat × Byte)) : Still s (s.putBlock n r b l) := by
  unfold State.putBlock
  split
  · exact .of_eq rfl rfl rfl rfl rfl
  · exact .of_eq rfl rfl rfl rfl rfl
  · split
    · exact .of_eq rfl rfl rfl rfl rfl
    · exact .refl s

theorem applyUndo_still (s : State) (n : Nat) (l : List UndoBlock) : Still s (s.applyUndo n l) :=
  foldl_rel Still.refl Still.trans _ (fun s _ => putBlock_still s n _ _ _) l s

theorem memoryAt_still (s : State) (n back : Nat) : Still s (s.memoryAt n back) :=
  foldl_rel Still.refl Still.trans (fun s (c : Ckpt) => s.applyUndo n c.undo) (fun s c => applyUndo_still s n c.undo) _ s

/-- A checkpoint restored: the core and the ring are its own, the frame is the one of its boundary (R436, R440). -/
theorem restoreCkpt_moved {s : State} {n back : Nat} {k : Ckpt} (h : (s.inst n).ring[back]? = some k) :
    ∃ i : Inst, Moved n s (s.restoreCkpt n back) i ∧ i.core = Core.jobsDropped k.core
      ∧ i.ring = { k with undo := [], input := none } :: (s.inst n).ring.drop (back + 1) ∧ i.released = k.frame
      ∧ i.rung = (s.inst n).rung ∧ i.found = (s.inst n).found ∧ i.running = (s.inst n).running := by
  have m := memoryAt_still s n back
  unfold State.restoreCkpt
  simp only [h]
  refine ⟨_, ((m.moved n).setInst _).trans (dropBlits_moved _ n), ?_⟩
  rw [State.core, inst_setInst_same, inst_congr m.insts n]
  exact ⟨rfl, rfl, rfl, rfl, rfl, rfl⟩

/-! Instance reset (R79, R300, R336). -/

@[simp] theorem coreReg_setReg_same (c : Core) (o : Nat) (w : Word) : (c.setReg o w).reg o = w := get_set_same _ _ _ _
theorem coreReg_setReg_other (c : Core) {o p : Nat} (w : Word) (h : p ≠ o) : (c.setReg o w).reg p = c.reg p := get_set_other _ _ _ h

/-- Core d has the threads, the queued effects and INST_RESET_PC of core c. -/
structure SameStart (c d : Core) : Prop where
  threads : d.threads = c.threads
  micro   : d.micro = c.micro
  entry   : d.reg O.INST_RESET_PC = c.reg O.INST_RESET_PC

theorem SameStart.refl (c : Core) : SameStart c c := ⟨rfl, rfl, rfl⟩
theorem SameStart.trans {a b c : Core} (h : SameStart a b) (k : SameStart b c) : SameStart a c :=
  ⟨k.threads.trans h.threads, k.micro.trans h.micro, k.entry.trans h.entry⟩
theorem setReg_sameStart (c : Core) {o : Nat} (w : Word) (h : O.INST_RESET_PC ≠ o) : SameStart c (c.setReg o w) :=
  ⟨rfl, rfl, coreReg_setReg_other c w h⟩

theorem countClamps_sameStart (c : Core) {o : Nat} (k : Nat) (h : O.INST_RESET_PC ≠ clampReg o) : SameStart c (c.countClamps o k) := by
  unfold Core.countClamps
  exact ite_rel (SameStart c) (.refl c) (setReg_sameStart c _ h)

/-- AUDIO_DEFAULTS are writes of the audio block (R300). -/
theorem audioDefaults_sameStart (c : Core) (entry : List Byte) : SameStart c (c.audioDefaults entry) := by
  have ha : ∀ o ∈ audioDefaultRegs, O.INST_RESET_PC ≠ o ∧ O.INST_RESET_PC ≠ clampReg o := by decide
  unfold Core.audioDefaults
  refine List.foldlRecOn (motive := SameStart c) _ _ (.refl c) fun d hd x hx => hd.trans ?_
  obtain ⟨o, k⟩ := x
  obtain ⟨ho, hk⟩ := ha o (List.fst_mem_of_mem_zipIdx hx)
  dsimp only
  split
  · exact .refl d
  · exact (setReg_sameStart d _ ho).trans (countClamps_sameStart _ _ hk)

theorem resetRegs_start (i : Inst) : i.resetRegs.threads = List.replicate 4 {} ∧ i.resetRegs.micro = []
    ∧ i.resetRegs.reg O.INST_RESET_PC = i.core.reg O.INST_RESET_PC := by
  refine ⟨rfl, rfl, ?_⟩
  unfold Inst.resetRegs
  simp only [List.foldl_cons, List.foldl_nil]
  rw [coreReg_setReg_other _ _ (by decide), coreReg_setReg_other _ _ (by decide), coreReg_setReg_other _ _ (by decide),
    coreReg_setReg_other _ _ (by decide), coreReg_setReg_other _ _ (by decide), coreReg_setReg_other _ _ (by decide),
    coreReg_setReg_same]

/-- The core of an instance reset before t0 starts (R79, R300). -/
def resetBase (i : Inst) (audio : List Byte) : Core :=
  (if i.adm.audio < audio.length / 64 then i.resetRegs.audioDefaults ((audio.drop (64 * i.adm.audio)).take 64) else i.resetRegs).resetMix

theorem resetBase_sameStart (i : Inst) (audio : List Byte) : SameStart i.resetRegs (resetBase i audio) :=
  have h : SameStart i.resetRegs
      (if i.adm.audio < audio.length / 64 then i.resetRegs.audioDefaults ((audio.drop (64 * i.adm.audio)).take 64) else i.resetRegs) :=
    ite_rel (SameStart i.resetRegs) (audioDefaults_sameStart _ _) (.refl _)
  h.trans ⟨rfl, rfl, rfl⟩

/-- After instance reset no effect is queued (R79). -/
theorem resetCore_micro (i : Inst) (audio : List Byte) : (i.resetCore audio).micro = [] :=
  (resetBase_sameStart i audio).micro.trans (resetRegs_start i).2.1

/-- After instance reset t0 runs from INST_RESET_PC (R79, R336). -/
theorem resetCore_thread (i : Inst) (audio : List Byte) : ((i.resetCore audio).thread 0).run = true
    ∧ ((i.resetCore audio).thread 0).pc = i.core.reg O.INST_RESET_PC &&& 0xFFFFFFFC := by
  obtain ⟨ht, _, he⟩ := resetRegs_start i
  have b := resetBase_sameStart i audio
  have hl : 0 < (resetBase i audio).threads.length := by rw [b.threads, ht]; decide
  have h : (i.resetCore audio).thread 0
      = { (resetBase i audio).thread 0 with run := true, pc := (resetBase i audio).reg O.INST_RESET_PC &&& 0xFFFFFFFC } :=
    thread_setThread_same _ hl
  rw [h, b.entry, he]
  exact ⟨rfl, rfl⟩

/-- What instance reset makes of an instance that was `old` (R79, R450). -/
structure ResetFrom (old : Inst) (audio : List Byte) (i : Inst) : Prop where
  core     : i.core = Core.jobsDropped (old.resetCore audio)
  released : i.released = 0
  shelfOk  : i.shelfOk = false
  found    : i.found = old.found
  running  : i.running = old.running

theorem ResetFrom.micro {old i : Inst} {audio : List Byte} (h : ResetFrom old audio i) : i.core.micro = [] := by
  rw [h.core]; exact resetCore_micro old audio

theorem ResetFrom.thread {old i : Inst} {audio : List Byte} (h : ResetFrom old audio i) : (i.core.thread 0).run = true
    ∧ (i.core.thread 0).pc = old.core.reg O.INST_RESET_PC &&& 0xFFFFFFFC := by
  rw [h.core]; exact resetCore_thread old audio

theorem resetInst_moved (s : State) (n : Nat) : ∃ i, Moved n s (s.resetInst n) i ∧ ResetFrom (s.inst n) s.image.audio i
    ∧ i.rung = (s.inst n).rung ∧ i.ckptDone = true := by
  unfold State.resetInst
  dsimp only
  refine ⟨_, ((moved_setInst s n _).trans (dropBlits_moved _ n)).still ((Still.refl _).memories _ _ _ _), ?_⟩
  rw [State.core, inst_setInst_same]
  exact ⟨⟨rfl, rfl, rfl, rfl, rfl⟩, rfl, rfl⟩

theorem noteJobs_mem (s : State) (n : Nat) : (s.noteJobs n).mem = s.mem ∧ (s.noteJobs n).vault = s.vault := by
  unfold State.noteJobs
  exact ite_rel (fun t : State => t.mem = s.mem ∧ t.vault = s.vault) ⟨rfl, rfl⟩ ⟨rfl, rfl⟩

theorem dropBlits_mem (s : State) (n : Nat) : (s.dropBlits n).mem = s.mem ∧ (s.dropBlits n).vault = s.vault := by
  unfold State.dropBlits
  rw [(noteJobs_mem _ n).1, (noteJobs_mem _ n).2]
  exact ⟨rfl, rfl⟩

theorem resetInst_clean {s : State} (c : s.clean) (n : Nat) : (s.resetInst n).clean := by
  unfold State.resetInst
  dsimp only
  refine clean_congr (s := s) ?_ ?_ c
  · dsimp only; rw [(dropBlits_mem _ n).1]; rfl
  · dsimp only; rw [(dropBlits_mem _ n).2]; rfl

/-! From Shelved (R453, R458). -/

/-- State s with other bytes in HBM. -/
def withHbm (s : State) (h : Map Byte) : State := { s with hbm := h }

theorem withHbm_still (s : State) (h : Map Byte) : Still s (withHbm s h) := (Still.refl s).memories _ _ _ _
theorem takeCkpt_clean {s : State} (c : s.clean) (n frame : Nat) : (s.takeCkpt n frame).clean := by
  unfold State.takeCkpt
  dsimp only
  split <;> exact clean_congr (s := s) rfl rfl c

/-- With its shelf image lost, an instance leaves Shelved by instance reset, Parked with its checkpoint taken (R458). -/
theorem fromShelved_resets {s : State} {n : Nat} (h : (s.inst n).shelfOk = false) (shelf : Option (List Byte)) :
    ∃ t i, s.fromShelved n shelf = .ok t ∧ Moved n s t i ∧ ResetFrom (s.inst n) s.image.audio i ∧ i.rung = .parked
      ∧ i.ckptDone = true ∧ (s.clean → t.clean) := by
  obtain ⟨i, m, r, hr, hc⟩ := resetInst_moved s n
  have hcl := fun c : s.clean => resetInst_clean c n
  have e : s.fromShelved n shelf = .ok (((withHbm (s.resetInst n) (putBytes (s.resetInst n).hbm ((s.resetInst n).parkBase n)
      ((s.resetInst n).parkBytes n 0))).modInst n fun i => { i with rung := .parked }).takeCkpt n 0) := by
    unfold State.fromShelved
    simp only [h, Bool.false_eq_true, if_false]
    rfl
  generalize putBytes (s.resetInst n).hbm ((s.resetInst n).parkBase n) ((s.resetInst n).parkBytes n 0) = b at e
  generalize s.resetInst n = t at m hcl e
  have mp := (m.still (withHbm_still t b)).modInst fun i => { i with rung := .parked }
  obtain ⟨_, _, _, _, k⟩ := takeCkpt_inst ((withHbm t b).modInst n fun i => { i with rung := .parked }) n 0
  rw [mp.inst] at k
  exact ⟨_, _, e, mp.trans k, ⟨r.core, r.released, r.shelfOk, r.found, r.running⟩, rfl, rfl, fun c =>
    takeCkpt_clean (clean_congr (s := t) rfl rfl (hcl c)) n 0⟩

/-- A shelf whose extents do not meet R456 (R458). -/
theorem fromShelved_badExtents {s : State} {n : Nat} (h : (s.inst n).shelfOk = true) (hx : s.shelfOkExtents n = false)
    (shelf : Option (List Byte)) : s.fromShelved n shelf = .error 5 := by
  unfold State.fromShelved
  simp only [h, hx, if_true, Bool.not_false]

/-- A read of the shelf image fails (R458). -/
theorem fromShelved_unread {s : State} {n : Nat} (h : (s.inst n).shelfOk = true) (hx : s.shelfOkExtents n = true) :
    s.fromShelved n none = .error 7 := by
  unfold State.fromShelved
  simp only [h, hx, if_true, Bool.not_true, Bool.false_eq_true, if_false]

/-- A shelf image that does not fit the instance (R458). -/
theorem fromShelved_misfit {s : State} {n : Nat} {b : List Byte} (h : (s.inst n).shelfOk = true) (hx : s.shelfOkExtents n = true)
    (hl : s.shelfLen n ≤ b.length) (hf : s.shelfFits n b = false) : s.fromShelved n (some b) = .error 5 := by
  unfold State.fromShelved
  simp only [h, hx, hf, Nat.not_lt.mpr hl, if_true, Bool.not_true, Bool.not_false, Bool.false_eq_true, if_false]

/-- A shelf image that fits is restored: the instance is Parked at the boundary of its frame (R458). -/
theorem fromShelved_restores {s : State} {n : Nat} {b : List Byte} (h : (s.inst n).shelfOk = true) (hx : s.shelfOkExtents n = true)
    (hl : s.shelfLen n ≤ b.length) (hf : s.shelfFits n b = true) :
    ∃ t i, s.fromShelved n (some b) = .ok t ∧ Moved n s t i ∧ i.rung = .parked ∧ i.shelfOk = false ∧ i.released = field b 8 8
      ∧ i.ckptDone = true ∧ i.found = (s.inst n).found ∧ i.running = (s.inst n).running := by
  have e : ∀ a w z y : Nat, Still s (((s.eccWrite .hbm a 524288).eccWrite .hbm z w).eccWrite .hbm y 262144) := fun a w z y =>
    (((eccWrite_checked s _ _ _).trans (eccWrite_checked _ _ _ _)).trans (eccWrite_checked _ _ _ _)).still
  have m : ∀ (t : State) (j : Inst), Still s t → ∃ r nu cut g, Moved n s (((t.setInst n j).dropBlits n).takeCkpt n (field b 8 8))
      { j with core := Core.jobsDropped j.core, ring := r, noUndo := nu, cut := cut, hlog := [], ckptDone := true, regs := g } := fun t j h => by
    have d := ((h.moved n).setInst j).trans (dropBlits_moved _ n)
    rw [State.core, inst_setInst_same] at d
    obtain ⟨r, nu, cut, g, k⟩ := takeCkpt_inst ((t.setInst n j).dropBlits n) n (field b 8 8)
    rw [d.inst] at k
    exact ⟨r, nu, cut, g, d.trans k⟩
  unfold State.fromShelved
  simp only [h, hx, hf, Nat.not_lt.mpr hl, if_true, Bool.not_true, Bool.false_eq_true, if_false]
  obtain ⟨_, _, _, _, k⟩ := m _ _ ((e _ _ _ _).memories _ _ _ _)
  exact ⟨_, _, rfl, k, rfl, rfl, rfl, rfl, rfl, rfl⟩

/-! The rung commands once they run (R450 to R460). -/

/-- A move of instance n to a rung waits for nothing: no boundary, no place, no shelf (R18, R391, R450, R466). -/
structure MayMove (s : State) (n : Nat) (c : RungCmd) (target : Rung) : Prop where
  rest  : (s.inst n).rung ≠ .playing
  place : rungCode target < 2 → 2 ≤ rungCode (s.inst n).rung → (s.placeFor n).isSome = true
  shelf : target = .shelved ∨ (s.inst n).rung = .shelved ∧ (s.inst n).shelfOk = true → s.pfTraffic = true ∧ s.workTurn c.seq = true

/-- Between Held and Parked a move waits for a place alone. -/
theorem mayMove_of_place {s : State} {n : Nat} {c : RungCmd} {target : Rung} (hp : (s.inst n).rung ≠ .playing) (ht : target ≠ .shelved)
    (hs : (s.inst n).rung = .shelved → (s.inst n).shelfOk = false)
    (hf : rungCode target < 2 → 2 ≤ rungCode (s.inst n).rung → (s.placeFor n).isSome = true) : MayMove s n c target := by
  refine ⟨hp, hf, fun h => ?_⟩
  obtain h | ⟨h, k⟩ := h
  · exact absurd h ht
  · rw [hs h] at k; cases k

/-- None of the waits of a move applies to one that may be made. -/
theorem MayMove.noWait {s : State} {n : Nat} {c : RungCmd} {target : Rung} (h : MayMove s n c target) :
    (decide ((s.inst n).rung = .playing) && !(s.inst n).atRest) = false
    ∧ (decide (rungCode target < 2) && decide (2 ≤ rungCode (s.inst n).rung) && (s.placeFor n).isNone) = false
    ∧ ((decide (target = .shelved) || decide ((s.inst n).rung = .shelved) && (s.inst n).shelfOk)
        && (!s.pfTraffic || !s.workTurn c.seq)) = false := by
  obtain ⟨hr, hp, hs⟩ := h
  refine ⟨by simp [hr], ?_, ?_⟩
  · by_cases hc : rungCode target < 2 ∧ 2 ≤ rungCode (s.inst n).rung
    · simp [Option.isNone_eq_false_iff.mpr (hp hc.1 hc.2)]
    · rw [← Bool.decide_and, decide_eq_false hc, Bool.false_and]
  · by_cases hc : target = .shelved ∨ (s.inst n).rung = .shelved ∧ (s.inst n).shelfOk = true
    · simp [hs hc]
    · have : (decide (target = .shelved) || decide ((s.inst n).rung = .shelved) && (s.inst n).shelfOk) = false := by simpa using hc
      rw [this, Bool.false_and]

section RungMove
variable {s t : State} {n op r : Nat} {c : RungCmd} {target : Rung} {shelf : Option (List Byte)} (hc : s.rungRuns n op = some c)
  (h : MayMove s n c target)
include hc h

theorem rungMove_up (hu : rungCode target < rungCode (s.inst n).rung) (e : s.raiseTo n target shelf = .ok t) :
    s.rungMove n op target shelf = t.endCmd n 0 := by
  obtain ⟨hr, hp, hs⟩ := h.noWait
  unfold State.rungMove
  simp only [hc, hr, hp, hs, hu, e, Bool.false_eq_true, if_false, if_true]
theorem rungMove_up_error (hu : rungCode target < rungCode (s.inst n).rung) (e : s.raiseTo n target shelf = .error r) :
    s.rungMove n op target shelf = s.endCmd n r := by
  obtain ⟨hr, hp, hs⟩ := h.noWait
  unfold State.rungMove
  simp only [hc, hr, hp, hs, hu, e, Bool.false_eq_true, if_false, if_true]
theorem rungMove_down (hd : rungCode (s.inst n).rung ≤ rungCode target) (e : s.lowerTo n target = (t, r)) :
    s.rungMove n op target shelf = t.endCmd n r := by
  obtain ⟨hr, hp, hs⟩ := h.noWait
  unfold State.rungMove
  simp only [hc, hr, hp, hs, Nat.not_lt.mpr hd, e, Bool.false_eq_true, if_false]

end RungMove

/-- HOLD at a boundary (R450, R452). -/
theorem hold_ends {s : State} {n : Nat} {c : RungCmd} (q : s.noCause) (ht : c.tag = none) (hc : s.rungRuns n 1 = some c)
    (hp : (s.inst n).rung = .playing) (ha : (s.inst n).atRest = true) :
    NextWith (exec (.hold n) s) fun u => RungEnded n 1 0 s u ∧ (u.inst n).rung = .held ∧ (u.inst n).aligned = true
      ∧ u.core n = (s.inst n).core ∧ (u.inst n).hostAt = (s.inst n).hostPos := by
  have e : exec (.hold n) s = fin ((s.modInst n Inst.stopAt).endCmd n 0) := by
    show fin (s.ladderHold n) = _
    unfold State.ladderHold
    simp only [hc, hp, ha, decide_true, Bool.and_self, if_true]
  rw [e]
  refine nextWith_mono (rungEnded_of_moved q hc ht (moved_setInst s n (s.inst n).stopAt) rfl rfl) fun u ⟨r, e⟩ => ⟨r, ?_⟩
  rw [State.core, e]
  exact ⟨rfl, rfl, rfl, rfl⟩

/-- HOLD_NOW (R452). -/
theorem holdNow_ends {s : State} {n : Nat} {c : RungCmd} (q : s.noCause) (ht : c.tag = none) (hc : s.rungRuns n 2 = some c)
    (hp : (s.inst n).rung = .playing) :
    NextWith (exec (.holdNow n) s) fun u => RungEnded n 2 0 s u ∧ (u.inst n).rung = .held ∧ (u.inst n).aligned = (s.inst n).ckptDone
      ∧ u.core n = (s.inst n).core.finishReturns ∧ (u.inst n).hostAt = (s.inst n).hostPos := by
  have e : exec (.holdNow n) s = fin ((s.modInst n Inst.stopNow).endCmd n 0) := by
    show fin (s.ladderHoldNow n) = _
    unfold State.ladderHoldNow
    simp only [hc, hp, if_true]
  rw [e]
  refine nextWith_mono (rungEnded_of_moved q hc ht (moved_setInst s n (s.inst n).stopNow) rfl rfl) fun u ⟨r, e⟩ => ⟨r, ?_⟩
  rw [State.core, e]
  exact ⟨rfl, rfl, rfl, rfl⟩

/-- The climb to Playing with the checkpoint taken and no effect queued (R450, R459). -/
theorem climb_moved {s : State} (cl : s.clean) {n : Nat} (hc : (s.inst n).ckptDone = true) (hm : (s.core n).micro = [])
    (h : (s.inst n).rung = .held ∨ (s.inst n).rung = .benched ∨ (s.inst n).rung = .parked) :
    Moved n s (climb s n 0) (Inst.entered { s.inst n with
      rung := .held, place := if (s.inst n).rung = .held then (s.inst n).place else s.placeFor n } s.wall) := by
  obtain h | h | h := h
  · have m := climb_held_moved h hm
    rw [if_pos h]
    exact m
  · rw [if_neg (by rw [h]; decide)]
    exact climb_benched_moved h hc hm
  · rw [if_neg (by rw [h]; decide)]
    exact climb_parked_moved cl h hc hm

/-- PLAY from Held, Benched and Parked (R450, R459). -/
theorem play_ends {s : State} {n : Nat} {c : RungCmd} (q : s.noCause) (cl : s.clean) (ht : c.tag = none) (hc : s.rungRuns n 3 = some c)
    (shelf : Option (List Byte))
    (h : (s.inst n).rung = .held ∨ (((s.inst n).rung = .benched ∨ (s.inst n).rung = .parked) ∧ (s.placeFor n).isSome = true))
    (hk : (s.inst n).ckptDone = true) (hm : (s.inst n).core.micro = []) :
    NextWith (exec (.play n shelf) s) fun u => RungEnded n 3 0 s u ∧ (u.inst n).rung = .playing ∧ (u.inst n).faultHeld = false
      ∧ (u.inst n).anchor = some (s.wall, (s.inst n).released) ∧ u.core n = (s.inst n).core
      ∧ (u.inst n).place = if (s.inst n).rung = .held then (s.inst n).place else s.placeFor n := by
  have hr : (s.inst n).rung = .held ∨ (s.inst n).rung = .benched ∨ (s.inst n).rung = .parked := h.imp_right fun h => h.1
  have hp : (s.inst n).rung ≠ .playing ∧ (s.inst n).rung ≠ .shelved ∧ 0 < rungCode (s.inst n).rung := by
    obtain h | h | h := hr <;> rw [h] <;> decide
  have may : MayMove s n c .playing := mayMove_of_place hp.1 (by decide) (fun h => absurd h hp.2.1) fun _ h2 => by
    obtain h | h := h
    · rw [h] at h2; exact absurd h2 (by decide)
    · exact h.2
  have e : exec (.play n shelf) s = fin ((climb s n 0).endCmd n 0) :=
    congrArg fin (rungMove_up hc may hp.2.2 (raiseTo_eq_climb hp.2.1 .playing shelf))
  rw [e]
  refine nextWith_mono (rungEnded_of_moved q hc ht (climb_moved cl hk hm hr) rfl rfl) fun u ⟨r, e⟩ => ⟨r, ?_⟩
  rw [State.core, e]
  exact ⟨rfl, rfl, rfl, rfl, rfl⟩

/-- PLAY from Shelved with the shelf image lost: instance reset comes first (R458). -/
theorem play_resets {s : State} {n : Nat} {c : RungCmd} (q : s.noCause) (cl : s.clean) (ht : c.tag = none) (hc : s.rungRuns n 3 = some c)
    (shelf : Option (List Byte)) (h : (s.inst n).rung = .shelved) (hs : (s.inst n).shelfOk = false) (hp : (s.placeFor n).isSome = true) :
    NextWith (exec (.play n shelf) s) fun u => RungEnded n 3 0 s u ∧ (u.inst n).rung = .playing ∧ (u.inst n).released = 0 := by
  obtain ⟨t, i, e, m, f, hr, hk, ct⟩ := fromShelved_resets hs shelf
  have may : MayMove s n c .playing := mayMove_of_place (by rw [h]; decide) (by decide) (fun _ => hs) fun _ _ => hp
  have e : exec (.play n shelf) s = fin ((climb t n 0).endCmd n 0) :=
    congrArg fin (rungMove_up hc may (by rw [h]; decide) (raiseTo_shelved h (by decide) e))
  have p := climb_parked_moved (ct cl) (n := n) (by rw [m.inst]; exact hr) (by rw [m.inst]; exact hk)
    (by rw [State.core, m.inst]; exact f.micro)
  rw [m.inst] at p
  rw [e]
  refine nextWith_mono (rungEnded_of_moved q hc ht (m.trans p) f.found f.running) fun u ⟨r, e⟩ => ⟨r, ?_⟩
  rw [e]
  exact ⟨rfl, f.released⟩

/-- BENCH from Held and Parked (R450, R453). -/
theorem bench_ends {s : State} {n : Nat} {c : RungCmd} (q : s.noCause) (cl : s.clean) (ht : c.tag = none) (hc : s.rungRuns n 4 = some c)
    (shelf : Option (List Byte)) (h : (s.inst n).rung = .held ∨ (s.inst n).rung = .parked) :
    NextWith (exec (.bench n shelf) s) fun u => RungEnded n 4 0 s u ∧ (u.inst n).rung = .benched ∧ u.core n = (s.inst n).core := by
  have hp : (s.inst n).rung ≠ .playing ∧ (s.inst n).rung ≠ .shelved := by
    obtain h | h := h <;> rw [h] <;> decide
  have may : MayMove s n c .benched := mayMove_of_place hp.1 (by decide) (fun h => absurd h hp.2) fun h1 => absurd h1 (by decide)
  have go : ∀ {t : State} {i : Inst}, s.rungMove n 4 .benched shelf = t.endCmd n 0 → Moved n s t i → i.found = (s.inst n).found →
      i.running = (s.inst n).running → i.rung = .benched → i.core = (s.inst n).core →
      NextWith (exec (.bench n shelf) s) fun u => RungEnded n 4 0 s u ∧ (u.inst n).rung = .benched ∧ u.core n = (s.inst n).core :=
    fun {t i} e m hf hn hr hk => by
      rw [show exec (.bench n shelf) s = fin (t.endCmd n 0) from congrArg fin e]
      refine nextWith_mono (rungEnded_of_moved q hc ht m hf hn) fun u ⟨r, e⟩ => ⟨r, ?_⟩
      rw [State.core, e]
      exact ⟨hr, hk⟩
  obtain h | h := h
  · have b := intoBenched_moved s n
    refine go (rungMove_down hc may (by rw [h]; decide) ?_) b rfl rfl rfl rfl
    rw [lowerTo_held h (by decide), lowerTo_benched_benched (by rw [b.inst])]
  · have b := fromParked_moved cl n
    refine go (rungMove_up hc may (by rw [h]; decide) ((raiseTo_eq_climb hp.2 .benched shelf).trans ?_)) b rfl rfl rfl rfl
    rw [show rungCode .benched = 2 from rfl, climb_parked cl h (by decide), climb_benched_benched (by rw [b.inst])]

/-- An instance lowered as far as Parked (R453). -/
theorem lowerTo_through_parked {s : State} (cl : s.clean) {n : Nat} {target : Rung} (ht : 3 ≤ rungCode target)
    (h : (s.inst n).rung = .held ∨ (s.inst n).rung = .benched ∨ (s.inst n).rung = .parked) :
    ∃ t l, s.lowerTo n target = t.lowerTo n target ∧ t.clean ∧ Moved n s t { s.inst n with rung := .parked, replay := l } := by
  have hb : ∀ {u : State}, u.clean → (u.inst n).rung = .benched → u.lowerTo n target = (u.intoParked n).lowerTo n target :=
    fun c k => lowerTo_benched c k ht
  obtain h | h | h := h
  · have b := intoBenched_moved s n
    have bc := intoBenched_clean cl n
    have p := intoParked_moved bc n
    rw [b.inst] at p
    exact ⟨_, _, (lowerTo_held h (by omega)).trans (hb bc (by rw [b.inst])), intoParked_clean bc n, b.trans p⟩
  · exact ⟨_, _, hb cl h, intoParked_clean cl n, intoParked_moved cl n⟩
  · have e : ({ s.inst n with rung := .parked, replay := (s.inst n).replay } : Inst) = s.inst n := by rw [← h]
    exact ⟨s, _, rfl, cl, e ▸ (Still.refl s).moved n⟩

/-- PARK from Held and Benched (R450, R453). -/
theorem park_ends {s : State} {n : Nat} {c : RungCmd} (q : s.noCause) (cl : s.clean) (ht : c.tag = none) (hc : s.rungRuns n 5 = some c)
    (shelf : Option (List Byte)) (h : (s.inst n).rung = .held ∨ (s.inst n).rung = .benched) :
    NextWith (exec (.park n shelf) s) fun u => RungEnded n 5 0 s u ∧ (u.inst n).rung = .parked ∧ u.core n = (s.inst n).core := by
  have hp : (s.inst n).rung ≠ .playing ∧ (s.inst n).rung ≠ .shelved ∧ rungCode (s.inst n).rung ≤ 3 := by
    obtain h | h := h <;> rw [h] <;> decide
  have may : MayMove s n c .parked := mayMove_of_place hp.1 (by decide) (fun h => absurd h hp.2.1) fun h1 => absurd h1 (by decide)
  obtain ⟨t, l, e, _, m⟩ := lowerTo_through_parked (target := .parked) cl (by decide) (h.imp_right Or.inl)
  have e : exec (.park n shelf) s = fin (t.endCmd n 0) :=
    congrArg fin (rungMove_down hc may hp.2.2 (e.trans (lowerTo_parked_parked (by rw [m.inst]))))
  rw [e]
  refine nextWith_mono (rungEnded_of_moved q hc ht m rfl rfl) fun u ⟨r, e⟩ => ⟨r, ?_⟩
  rw [State.core, e]
  exact ⟨rfl, rfl⟩

section ParkFromShelved
variable {s : State} {n : Nat} {c : RungCmd} (q : s.noCause) (ht : c.tag = none) (hc : s.rungRuns n 5 = some c)
  {shelf : Option (List Byte)} (h : (s.inst n).rung = .shelved) (hp : s.pfTraffic = true) (hw : s.workTurn c.seq = true)
include h hp hw

theorem mayMove_parked : MayMove s n c .parked :=
  ⟨by rw [h]; decide, fun h1 => absurd h1 (by decide), fun _ => ⟨hp, hw⟩⟩

include q ht hc

/-- PARK whose shelf cannot be restored: the command ends with the reason, and the instance stays Shelved (R458). -/
theorem park_fails {r : Nat} (e : s.fromShelved n shelf = .error r) (hr : r ≠ 15) :
    NextWith (exec (.park n shelf) s) fun u => RungEnded n 5 r s u ∧ (u.inst n).rung = .shelved := by
  have e : exec (.park n shelf) s = fin (s.endCmd n r) :=
    congrArg fin (rungMove_up_error hc (mayMove_parked h hp hw) (by rw [h]; decide) (raiseTo_shelved_error h (by decide) e))
  rw [e]
  refine nextWith_mono (rungEnded_of_moved q hc ht ((Still.refl s).moved n) rfl rfl (hr := hr)) fun u ⟨r, e⟩ => ⟨r, ?_⟩
  rw [e]
  exact h

/-- PARK with a shelf image that fits (R458). -/
theorem park_restores {b : List Byte} (hs : (s.inst n).shelfOk = true) (hx : s.shelfOkExtents n = true)
    (hl : s.shelfLen n ≤ b.length) (hf : s.shelfFits n b = true) :
    NextWith (exec (.park n (some b)) s) fun u => RungEnded n 5 0 s u ∧ (u.inst n).rung = .parked ∧ (u.inst n).shelfOk = false
      ∧ (u.inst n).released = field b 8 8 ∧ (u.inst n).ckptDone = true := by
  obtain ⟨t, i, e, m, hi, hk, hr, hd, hf, hn⟩ := fromShelved_restores hs hx hl hf
  have e : exec (.park n (some b)) s = fin (t.endCmd n 0) :=
    congrArg fin (rungMove_up hc (mayMove_parked h hp hw) (by rw [h]; decide)
      ((raiseTo_shelved h (by decide) e).trans (congrArg Except.ok (climb_parked_parked (by rw [m.inst]; exact hi)))))
  rw [e]
  refine nextWith_mono (rungEnded_of_moved q hc ht m hf hn) fun u ⟨r, e⟩ => ⟨r, ?_⟩
  rw [e]
  exact ⟨hi, hk, hr, hd⟩

end ParkFromShelved

/-- SHELVE (R450, R453, R456). -/
theorem shelve_ends {s : State} {n : Nat} {c : RungCmd} (q : s.noCause) (cl : s.clean) (ht : c.tag = none) (hc : s.rungRuns n 6 = some c)
    (h : (s.inst n).rung = .held ∨ (s.inst n).rung = .benched ∨ (s.inst n).rung = .parked) (hp : s.pfTraffic = true)
    (hw : s.workTurn c.seq = true) (hx : s.shelfOkExtents n = true) :
    NextWith (exec (.shelve n) s) fun u => RungEnded n 6 0 s u ∧ (u.inst n).rung = .shelved ∧ (u.inst n).shelfOk = true
      ∧ (u.inst n).ring = [] := by
  have hr : (s.inst n).rung ≠ .playing ∧ rungCode (s.inst n).rung ≤ 4 := by
    obtain h | h | h := h <;> rw [h] <;> decide
  have may : MayMove s n c .shelved := ⟨hr.1, fun h1 => absurd h1 (by decide), fun _ => ⟨hp, hw⟩⟩
  obtain ⟨t, l, e, ct, m⟩ := lowerTo_through_parked (target := .shelved) cl (by decide) h
  obtain ⟨_, _, k⟩ := intoShelved_moved ct n
  rw [m.inst] at k
  have e : exec (.shelve n) s = fin ((t.intoShelved n).endCmd n 0) :=
    congrArg fin (rungMove_down hc may hr.2
      (e.trans (lowerTo_parked_shelved (by rw [m.inst]) ((m.shelfOkExtents rfl rfl).trans hx))))
  rw [e]
  refine nextWith_mono (rungEnded_of_moved q hc ht (m.trans k) rfl rfl) fun u ⟨r, e⟩ => ⟨r, ?_⟩
  rw [e]
  exact ⟨rfl, rfl, rfl⟩

theorem dropLines_still (s : State) (n : Nat) : Still s (s.dropLines n) := .of_eq rfl rfl rfl rfl rfl

/-- What REWIND sets of the instance once its checkpoint is restored (R440). -/
def rewindInst (k top : Ckpt) (wait : Bool) (i : Inst) : Inst :=
  { i with builds := [], preAudio := [], doneTo := k.frame, faultHeld := false, rewound := true, whDue := []
           modeCh := false, active := i.active.filter fun f => decide (f < k.frame)
           catchUp := if k.frame < top.frame then some ⟨top.frame, wait⟩ else none }

/-- REWIND once no line is in flight and no leaf is awaited (R436, R440). -/
theorem ladderRewind_eq {s : State} {n : Nat} {c : RungCmd} {top k : Ckpt} (hc : s.rungRuns n 7 = some c)
    (hj : (s.inst n).jobs = []) (hl : (s.inst n).rendering = []) (h0 : (s.inst n).ring[0]? = some top)
    (hk : (s.inst n).ring[c.back]? = some k) (hu : s.undoLeaf n c.back = none) : s.ladderRewind n
      = (((((s.dropLines n).dropPackets n false k.frame).restoreCkpt n c.back).modInst n (rewindInst k top c.wait)).dropInputs n
          top.frame).endCmd n 0 := by
  unfold State.ladderRewind
  simp only [hc, hj, hl, hu, h0, hk, List.isEmpty_nil, Bool.not_true, Option.isSome_none, Bool.or_self, Bool.false_eq_true, if_false]
  rfl

/-- REWIND restores the checkpoint, and forgets what was built after it (R440). -/
theorem rewind_ends {s : State} {n : Nat} {c : RungCmd} {top k : Ckpt} (q : s.noCause) (ht : c.tag = none)
    (hc : s.rungRuns n 7 = some c) (hj : (s.inst n).jobs = []) (hl : (s.inst n).rendering = [])
    (h0 : (s.inst n).ring[0]? = some top) (hk : (s.inst n).ring[c.back]? = some k) (hu : s.undoLeaf n c.back = none) :
    NextWith (exec (.rewind n) s) fun u => RungEnded n 7 0 s u ∧ (u.inst n).rung = (s.inst n).rung ∧ (u.inst n).released = k.frame
      ∧ u.core n = Core.jobsDropped k.core ∧ (u.inst n).ring = { k with undo := [], input := none } :: (s.inst n).ring.drop (c.back + 1)
      ∧ (u.inst n).rewound = true ∧ (u.inst n).catchUp = (if k.frame < top.frame then some ⟨top.frame, c.wait⟩ else none)
      ∧ (u.inst n).builds = [] := by
  have hd0 := (dropLines_still s n).moved n
  obtain ⟨p, g, hp⟩ := dropPackets_moved (s.dropLines n) n false k.frame
  rw [hd0.inst] at hp
  obtain ⟨i, hr, hcore, hring, hrel, hrung, hf, hn⟩ := restoreCkpt_moved (s := (s.dropLines n).dropPackets n false k.frame)
    (n := n) (back := c.back) (k := k) (by rw [hp.inst]; exact hk)
  rw [hp.inst] at hring hrung hf hn
  have m := ((hd0.trans hp).trans hr).modInst (rewindInst k top c.wait)
  obtain ⟨l, v, hd⟩ := dropInputs_moved
    ((((s.dropLines n).dropPackets n false k.frame).restoreCkpt n c.back).modInst n (rewindInst k top c.wait)) n top.frame
  rw [m.inst] at hd
  rw [show exec (.rewind n) s = _ from congrArg fin (ladderRewind_eq hc hj hl h0 hk hu)]
  refine nextWith_mono (rungEnded_of_moved q hc ht (m.trans hd) hf hn) fun u ⟨r, e⟩ => ⟨r, ?_⟩
  rw [State.core, e]
  exact ⟨hrung, hrel, hcore, hring, rfl, rfl, rfl⟩

/-- The state after RESET but for the input packets it drops (R450). -/
def resetOnRung (s : State) (n : Nat) : State :=
  let t := (s.resetInst n).modInst n fun i => { i with faultHeld := false }
  let t := if (s.inst n).rung = .held then t.takeCkpt n 0 else t.modInst n fun i => { i with ckptDone := (s.inst n).rung == .shelved }
  if (s.inst n).rung = .parked then
    withHbm t (putBytes t.hbm (t.parkBase n + 0x70000) ((t.inst n).coreRecord 0 (t.threeFlop n)))
  else t

theorem resetOnRung_moved (s : State) (n : Nat) : ∃ i, Moved n s (resetOnRung s n) i ∧ ResetFrom (s.inst n) s.image.audio i
    ∧ i.rung = (s.inst n).rung ∧ i.faultHeld = false := by
  obtain ⟨i, m, r, hr, _⟩ := resetInst_moved s n
  have h0 := m.modInst fun i => { i with faultHeld := false }
  unfold resetOnRung
  generalize (s.resetInst n).modInst n (fun i => { i with faultHeld := false }) = t at h0
  have h1 : ∃ j, Moved n s (if (s.inst n).rung = .held then t.takeCkpt n 0
        else t.modInst n fun i => { i with ckptDone := (s.inst n).rung == .shelved }) j ∧ ResetFrom (s.inst n) s.image.audio j
      ∧ j.rung = (s.inst n).rung ∧ j.faultHeld = false := by
    split
    · obtain ⟨_, _, _, _, k⟩ := takeCkpt_inst t n 0
      rw [h0.inst] at k
      exact ⟨_, h0.trans k, ⟨r.core, r.released, r.shelfOk, r.found, r.running⟩, hr, rfl⟩
    · exact ⟨_, h0.modInst fun i => { i with ckptDone := (s.inst n).rung == .shelved },
        ⟨r.core, r.released, r.shelfOk, r.found, r.running⟩, hr, rfl⟩
  obtain ⟨j, w, h⟩ := h1
  dsimp only
  split
  · exact ⟨j, w.still (withHbm_still _ _), h⟩
  · exact ⟨j, w, h⟩

/-- RESET (R450, R475). -/
theorem reset_ends {s : State} {n : Nat} {c : RungCmd} (q : s.noCause) (ht : c.tag = none) (hc : s.rungRuns n 8 = some c) :
    NextWith (exec (.instReset n) s) fun u => RungEnded n 8 0 s u ∧ (u.inst n).rung = (s.inst n).rung ∧ (u.inst n).released = 0
      ∧ (u.inst n).faultHeld = false ∧ (u.inst n).shelfOk = false ∧ ((u.core n).thread 0).run = true
      ∧ ((u.core n).thread 0).pc = (s.inst n).core.reg O.INST_RESET_PC &&& 0xFFFFFFFC := by
  obtain ⟨i, m, f, hr, hh⟩ := resetOnRung_moved s n
  obtain ⟨l, v, hd⟩ := dropInputs_moved (resetOnRung s n) n (2 ^ 64)
  rw [m.inst] at hd
  have e : s.ladderReset n = ((resetOnRung s n).dropInputs n (2 ^ 64)).endCmd n 0 := by
    unfold State.ladderReset
    simp only [hc]
    rfl
  rw [show exec (.instReset n) s = _ from congrArg fin e]
  refine nextWith_mono (rungEnded_of_moved q hc ht (m.trans hd) f.found f.running) fun u ⟨r, e⟩ => ⟨r, ?_⟩
  rw [State.core, e]
  exact ⟨hr, f.released, hh, f.shelfOk, f.thread⟩

/-- ADOPT (R450). -/
theorem adopt_ends {s : State} {n : Nat} {c : RungCmd} (q : s.noCause) (ht : c.tag = none) (hc : s.rungRuns n 9 = some c) :
    NextWith (exec (.adopt n) s) fun u => RungEnded n 9 0 s u ∧ (u.inst n).rung = (s.inst n).rung ∧ (u.inst n).shelfOk = true
      ∧ u.core n = (s.inst n).core := by
  have e : s.ladderAdopt n = (s.modInst n fun i => { i with shelfOk := true }).endCmd n 0 := by
    unfold State.ladderAdopt
    simp only [hc]
  rw [show exec (.adopt n) s = _ from congrArg fin e]
  refine nextWith_mono (rungEnded_of_moved q hc ht (moved_setInst s n { s.inst n with shelfOk := true }) rfl rfl) fun u ⟨r, e⟩ => ⟨r, ?_⟩
  rw [State.core, e]
  exact ⟨rfl, rfl, rfl⟩

/-- Settles O44: each command makes of its instance what its moves make of it, step by step, and leaves every other instance. -/
theorem rungMoves : Obligations.RungMoves := by
  unfold Obligations.RungMoves
  intro n c shelf s q cl ht i result ends
  refine ⟨hold_ends q ht, holdNow_ends q ht, fun hc => ⟨play_ends q cl ht hc shelf, play_resets q cl ht hc shelf⟩,
    fun hc => bench_ends q cl ht hc shelf, fun hc => ⟨park_ends q cl ht hc shelf, fun h hs hp hw => ⟨fun hx => ?_, fun hx hb => ?_, ?_⟩⟩,
    fun hc h hp hw hx => shelve_ends q cl ht hc h hp hw hx, fun top k hc hj hl h0 hk hu => rewind_ends q ht hc hj hl h0 hk hu,
    reset_ends q ht, adopt_ends q ht⟩
  · exact park_fails q ht hc h hp hw (fromShelved_badExtents hs hx shelf) (by decide)
  · exact park_fails q ht hc h hp hw (hb ▸ fromShelved_unread hs hx) (by decide)
  · rintro b hx rfl hl
    exact ⟨fun hf => park_fails q ht hc h hp hw (fromShelved_misfit hs hx hl hf) (by decide),
      park_restores q ht hc h hp hw hs hx hl⟩

end Sys2Proof.Proofs

namespace Sys2Proof.Proofs
open Sys2Proof.Machine Sys2Proof.Laws

/-! PROOFS of the family of 06_composition.md: the Bell layer, its commit, its bank switch and its surface window (R203, R206 to R208).

Words and bytes. -/

theorem tb_toNat (w : Word) (b : Nat) : tb w.toNat b = w.getLsbD b := (tb_eq_testBit _ b).trans (BitVec.testBit_toNat w)

/-- A value put into the two low bits of a register word, below the rest of it. -/
theorem wset_low_pair (w : Word) {v : Nat} (h : v < 4) : (wset w 1 0 v).toNat % 4 = v ∧ (wset w 1 0 v).toNat / 4 = w.toNat / 4 := by
  have e : (wset w 1 0 v).toNat = w.toNat - w.toNat % 4 + v := by
    have hw := w.isLt
    have hx : setBits w.toNat 1 0 v = w.toNat - w.toNat % 4 * 1 + v % 4 * 1 := rfl
    unfold wset
    rw [hx, BitVec.toNat_ofNat]
    omega
  rw [e]
  constructor <;> omega

@[simp] theorem length_leBytes (k v : Nat) : (leBytes k v).length = k := by
  induction k generalizing v with
  | zero => rfl
  | succ k ih => exact congrArg (· + 1) (ih _)

/-- Byte j of a number in little-endian order (R2). -/
theorem getD_leBytes {k j : Nat} (h : j < k) (v : Nat) : (leBytes k v).getD j 0 = BitVec.ofNat 8 (v / 256 ^ j) := by
  induction k generalizing j v with
  | zero => exact absurd h (Nat.not_lt_zero j)
  | succ k ih =>
    cases j with
    | zero => rw [Nat.pow_zero, Nat.div_one]; rfl
    | succ j =>
      calc (leBytes (k + 1) v).getD (j + 1) 0
        _ = (leBytes k (v / 256)).getD j 0 := rfl
        _ = BitVec.ofNat 8 (v / 256 / 256 ^ j) := ih (Nat.lt_of_succ_lt_succ h) _
        _ = BitVec.ofNat 8 (v / 256 ^ (j + 1)) := by rw [Nat.div_div_eq_div_mul, Nat.pow_succ']

/-- A memory after a number is written to it in little-endian order. -/
theorem get_putBytes_leBytes (m : Map Byte) (b k v a : Nat) :
    (putBytes m b (leBytes k v)).get zeroByte a
      = if b ≤ a ∧ a < b + k then BitVec.ofNat 8 (v / 256 ^ (a - b)) else m.get zeroByte a := by
  rw [get_putBytes, length_leBytes]
  split
  case isTrue h => exact getD_leBytes (by omega) v
  case isFalse => rfl

/-- A write changes no check code of a memory without corrupted words (R406). -/
theorem eccWrite_sound {s : State} {m : MemId} (h : s.badOf m = ([], [])) (a k : Nat) : s.eccWrite m a k = s := by
  have hs : s.sound m = true := by unfold State.sound; rw [h]; rfl
  unfold State.eccWrite
  rw [hs, Bool.true_or, if_pos rfl]

/-! COMMIT (R206, R208). -/

/-- COMMIT of instance n is refused (R208). -/
def BellRefuses (s : State) (n : Nat) : Prop :=
  s.bellPending n = true ∨ 12288 < (s.bellStaged n).h * bellPitch (s.bellStaged n).w (bellBpp (bits (s.bellStaged n).ctrl 3 2))

/-- A bit of a register is set for a write of the host, which is answered. -/
theorem nextWith_pfOr {s : State} (q : s.noCause) (o m : Nat) :
    NextWith (fin ((s.answered .done).pfOr o m)) fun u => u.answer = some .done ∧ u.insts = s.insts ∧ u.pool = s.pool
      ∧ u.pf o = s.pf o ||| BitVec.ofNat 32 m :=
  nextWith_fin (noCause_congr q rfl rfl)
    ⟨icuLevels_answer _, icuLevels_insts _, icuLevels_pool _, (icuLevels_pf _ o).trans (pf_pfOr_same _ o m)⟩

/-- A write of COMMIT for an admitted instance. -/
theorem bellCommit_admitted {s : State} {n : Nat} {v : Word} (ha : (s.inst n).adm.state = 2) :
    (v.getLsbD 0 = false → s.bellCommit n v = s)
      ∧ (v.getLsbD 0 = true → BellRefuses s n → s.bellCommit n v = s.pfOr (O.CMP_BELL_STATUS + 128 * n) 32)
      ∧ (v.getLsbD 0 = true → ¬ BellRefuses s n → s.bellCommit n v = s.pfOr (O.CMP_BELL_STATUS + 128 * n) 2) := by
  unfold State.bellCommit BellRefuses
  refine ⟨fun hv => ?_, fun hv hr => ?_, fun hv hr => ?_⟩
  · simp only [tb_toNat, hv, Bool.not_false, if_true]
  · simp only [tb_toNat, hv, Bool.or_eq_true, decide_eq_true_eq, hr, Bool.not_true, Bool.false_eq_true, if_false, if_true]
  · simp only [tb_toNat, hv, Bool.or_eq_true, decide_eq_true_eq, hr, ha, Bool.not_true, Bool.false_eq_true, ne_eq, not_true_eq_false,
      if_false]

/-- CMP_BELL_COMMIT of an admitted instance sets COMMIT_REFUSED or PENDING, and nothing without COMMIT. -/
theorem cmpBellCommit_leaves {s : State} (q : s.noCause) {n : Nat} (hn : n < 512) {v : Word}
    (d : s.Direct .pf (.pf (O.CMP_BELL_COMMIT + 128 * n))) (ha : (s.inst n).adm.state = 2) :
    NextWith (exec (.cmpBellCommit n v) s) fun u => u.answer = some .done ∧ u.insts = s.insts ∧ u.pool = s.pool
      ∧ u.pf (O.CMP_BELL_STATUS + 128 * n) = if v.getLsbD 0 = false then s.pf (O.CMP_BELL_STATUS + 128 * n)
          else if s.bellPending n = true
            ∨ 12288 < (s.bellStaged n).h * bellPitch (s.bellStaged n).w (bellBpp (bits (s.bellStaged n).ctrl 3 2))
          then s.pf (O.CMP_BELL_STATUS + 128 * n) ||| 32 else s.pf (O.CMP_BELL_STATUS + 128 * n) ||| 2 := by
  have e : exec (.cmpBellCommit n v) s = fin ((s.answered .done).bellCommit n v) :=
    (if_pos hn).trans (congrArg fin (hostWrite_direct d 4 v.toNat _))
  obtain ⟨hzero, hrefused, hpending⟩ := bellCommit_admitted (s := s.answered .done) (v := v) ha
  rw [e]
  split
  case isTrue hv =>
    rw [hzero hv]
    exact nextWith_fin (noCause_answered q _) ⟨icuLevels_answer _, icuLevels_insts _, icuLevels_pool _, icuLevels_pf _ _⟩
  case isFalse hv =>
    have hv : v.getLsbD 0 = true := eq_true_of_ne_false hv
    split
    case isTrue hr => rw [hrefused hv hr]; exact nextWith_pfOr q _ 32
    case isFalse hr => rw [hpending hv hr]; exact nextWith_pfOr q _ 2

/-! The bank switch (R206, R208). -/

theorem bellBank_lt_two (s : State) (n : Nat) : s.bellBank n < 2 := Nat.mod_lt _ (by decide)

/-- The switch makes a configuration active, in its own instance alone. -/
theorem bellSwitch_insts (s : State) (n : Nat) (c : BellCfg) :
    (s.bellSwitch n c).insts = (s.setInst n { s.inst n with bell := { act := c, next := none } }).insts := rfl

/-- The switch exchanges the banks and clears PENDING; the other fields of CMP_BELL_STATUS stay. -/
theorem bellSwitch_status (s : State) (n : Nat) (c : BellCfg) :
    ((s.bellSwitch n c).pf (O.CMP_BELL_STATUS + 128 * n)).toNat % 4 = 1 - s.bellBank n
      ∧ ((s.bellSwitch n c).pf (O.CMP_BELL_STATUS + 128 * n)).toNat / 4 = (s.pf (O.CMP_BELL_STATUS + 128 * n)).toNat / 4 := by
  unfold State.bellSwitch
  rw [pf_pfSet_same]
  exact wset_low_pair _ (by omega)

theorem bellSwitch_noCause {s : State} (q : s.noCause) (n : Nat) (c : BellCfg) : (s.bellSwitch n c).noCause := by
  have h : (s.setInst n { s.inst n with bell := { act := c, next := none } }).noCause := noCause_setInst q (q.2 n)
  exact noCause_congr h rfl (bellSwitch_insts s n c)

/-- BELL_BANK_SWITCH after a release with a pending commit. -/
theorem bellBankSwitch_leaves {s : State} (q : s.noCause) {n : Nat} {c : BellCfg} (hc : (s.inst n).bell.next = some c) :
    NextWith (exec (.bellBankSwitch n) s) fun u =>
      u.inst n = { s.inst n with bell := { act := c, next := none } } ∧ (∀ m, m ≠ n → u.inst m = s.inst m)
        ∧ (u.pf (O.CMP_BELL_STATUS + 128 * n)).toNat % 4 = 1 - s.bellBank n
        ∧ (u.pf (O.CMP_BELL_STATUS + 128 * n)).toNat / 4 = (s.pf (O.CMP_BELL_STATUS + 128 * n)).toNat / 4 := by
  have e : exec (.bellBankSwitch n) s = fin (s.bellSwitch n c) := by
    show execBellBankSwitch n s = _
    unfold execBellBankSwitch
    rw [hc]
  have hi (m : Nat) : (s.bellSwitch n c).icuLevels.inst m
      = (s.setInst n { s.inst n with bell := { act := c, next := none } }).inst m :=
    (icuLevels_inst _ m).trans (inst_congr (bellSwitch_insts s n c) m)
  rw [e]
  refine nextWith_fin (bellSwitch_noCause q n c)
    ⟨(hi n).trans (inst_setInst_same s n _), fun m h => (hi m).trans (inst_setInst_other s _ h), ?_⟩
  rw [icuLevels_pf]
  exact bellSwitch_status s n c

/-! The surface window (R203, R207; log entry 47). -/

/-- A write of the host that reaches the surface window, of a width that the window takes. -/
structure BellWindowWrite (s : State) (n off width : Nat) : Prop where
  shows   : s.pfBits O.CMP_BELL_WIN_SEL 8 0 = n
  below   : off < 0x3000
  takes   : width ∈ [1, 2, 4, 8]
  aligned : off % width = 0
  direct  : s.Direct .pf (.pf (0x3A0000 + off))

theorem BellWindowWrite.exec_eq {s : State} {n off width : Nat} (h : BellWindowWrite s n off width) (v : Nat) :
    exec (.bellSurfaceWrite off width v) s = fin ((s.answered .done).bellSurface off (leBytes width v)) := by
  have hc : (decide (off < 0x3000) && [1, 2, 4, 8].contains width && decide (off % width = 0)) = true := by
    simp only [h.below, h.aligned, List.contains_iff_mem.mpr h.takes, decide_true, Bool.and_self]
  exact (if_pos hc).trans (congrArg fin (hostWrite_direct h.direct width v _))

/-- While no commit is pending a write goes to the staging bank, and changes no register. -/
theorem bellSurface_open {s : State} {n : Nat} (hn : s.pfBits O.CMP_BELL_WIN_SEL 8 0 = n) (hp : s.bellPending n = false)
    (hb : s.badOf .pool = ([], [])) (off : Nat) (data : List Byte) :
    s.bellSurface off data
      = { s with pool := putBytes s.pool (0x6880000 + n * 0x8000 + (1 - s.bellBank n) * 0x3000 + off) data } := by
  have hw : s.bellWindow = (n, 0x6880000 + n * 0x8000 + (1 - s.bellBank n) * 0x3000) := by
    unfold State.bellWindow; rw [hn]
  unfold State.bellSurface
  simp only [hw, hp, Bool.false_eq_true, if_false, eccWrite_sound hb]

/-- While a commit is pending a write is refused. -/
theorem bellSurface_pending {s : State} {n : Nat} (hn : s.pfBits O.CMP_BELL_WIN_SEL 8 0 = n) (hp : s.bellPending n = true)
    (off : Nat) (data : List Byte) : s.bellSurface off data = s.pfOr (O.CMP_BELL_STATUS + 128 * n) 16 := by
  have hw : s.bellWindow.1 = n := hn
  unfold State.bellSurface
  simp only [hw, hp, if_true]

theorem bellSurfaceWrite_open {s : State} (q : s.noCause) {n off width : Nat} (h : BellWindowWrite s n off width) (v : Nat)
    (hp : s.bellPending n = false) (hb : s.badOf .pool = ([], [])) :
    NextWith (exec (.bellSurfaceWrite off width v) s) fun u => u.regs = s.regs ∧ u.insts = s.insts
      ∧ ∀ a, u.pool.get zeroByte a =
          if 0x6880000 + n * 0x8000 + (1 - s.bellBank n) * 0x3000 + off ≤ a
              ∧ a < 0x6880000 + n * 0x8000 + (1 - s.bellBank n) * 0x3000 + off + width
          then BitVec.ofNat 8 (v / 256 ^ (a - (0x6880000 + n * 0x8000 + (1 - s.bellBank n) * 0x3000 + off)))
          else s.pool.get zeroByte a := by
  rw [h.exec_eq v, bellSurface_open (s := s.answered .done) h.shows hp hb]
  refine nextWith_fin (noCause_congr q rfl rfl) ⟨icuLevels_regs _, icuLevels_insts _, fun a => ?_⟩
  rw [icuLevels_pool]
  exact get_putBytes_leBytes s.pool _ width v a

theorem bellSurfaceWrite_pending {s : State} (q : s.noCause) {n off width : Nat} (h : BellWindowWrite s n off width) (v : Nat)
    (hp : s.bellPending n = true) :
    NextWith (exec (.bellSurfaceWrite off width v) s) fun u => u.pool = s.pool
      ∧ u.pf (O.CMP_BELL_STATUS + 128 * n) = s.pf (O.CMP_BELL_STATUS + 128 * n) ||| 16 ∧ u.insts = s.insts := by
  rw [h.exec_eq v, bellSurface_pending (s := s.answered .done) h.shows hp]
  exact nextWith_mono (nextWith_pfOr q _ 16) fun u ⟨_, hi, hpool, hst⟩ => ⟨hpool, hst, hi⟩

/-- Settles O43: the commit, the bank switch, and a write of the surface window without and with a pending commit. -/
theorem bellEvents : Obligations.BellEvents := by
  unfold Obligations.BellEvents
  intro n s q hn st
  refine ⟨fun v d ha => cmpBellCommit_leaves q hn d ha, fun c hc => bellBankSwitch_leaves q hc,
    fun off width v hs ho hw ha d => ?_⟩
  have h : BellWindowWrite s n off width := ⟨hs, ho, hw, ha, d⟩
  exact ⟨bellSurfaceWrite_open q h v, bellSurfaceWrite_pending q h v⟩

end Sys2Proof.Proofs

namespace Sys2Proof.Proofs
open Sys2Proof.Machine Sys2Proof.Laws

/-! PROOFS of the family of 07_blitter.md: the check and the beats of a blit job, and the host's writes of the engines of a Held instance.

Fields of numbers and of register words. -/

theorem bits_eq_div_mod (v hi lo : Nat) : bits v hi lo = v / 2 ^ lo % 2 ^ (hi + 1 - lo) := by
  rw [bits, Nat.shiftRight_eq_div_pow]

theorem testBit_bits (v hi lo i : Nat) : (bits v hi lo).testBit i = (decide (i < hi + 1 - lo) && v.testBit (lo + i)) := by
  rw [bits, Nat.testBit_mod_two_pow, Nat.testBit_shiftRight]

/-- A field of a number is put between its higher and its lower bits. -/
theorem setBits_eq (v hi lo x : Nat) : setBits v hi lo x
    = 2 ^ lo * (2 ^ (hi + 1 - lo) * (v / 2 ^ lo / 2 ^ (hi + 1 - lo)) + x % 2 ^ (hi + 1 - lo)) + v % 2 ^ lo := by
  have hv : v = 2 ^ lo * (2 ^ (hi + 1 - lo) * (v / 2 ^ lo / 2 ^ (hi + 1 - lo)) + bits v hi lo) + v % 2 ^ lo := by
    rw [bits_eq_div_mod, Nat.div_add_mod, Nat.div_add_mod]
  unfold setBits
  dsimp only
  rw [Nat.mul_add] at hv ⊢
  rw [Nat.mul_comm (bits v hi lo), Nat.mul_comm (x % _)]
  omega

theorem testBit_setBits (v hi lo x i : Nat) :
    (setBits v hi lo x).testBit i = if lo ≤ i ∧ i ≤ hi then x.testBit (i - lo) else v.testBit i := by
  rw [setBits_eq, Nat.testBit_two_pow_mul_add _ (Nat.mod_lt _ (Nat.two_pow_pos lo))]
  by_cases hlo : i < lo
  · rw [if_pos hlo, if_neg (by omega), Nat.testBit_mod_two_pow]
    simp [hlo]
  · rw [if_neg hlo, Nat.testBit_two_pow_mul_add _ (Nat.mod_lt _ (Nat.two_pow_pos _))]
    by_cases hhi : i ≤ hi
    · have h : i - lo < hi + 1 - lo := by omega
      rw [if_pos h, if_pos (by omega), Nat.testBit_mod_two_pow]
      simp [h]
    · rw [if_neg (by omega), if_neg (by omega), Nat.testBit_div_two_pow, Nat.testBit_div_two_pow]
      congr 1
      omega

theorem bits_setBits_same (v hi lo x : Nat) : bits (setBits v hi lo x) hi lo = x % 2 ^ (hi + 1 - lo) := by
  refine Nat.eq_of_testBit_eq fun i => ?_
  rw [testBit_bits, testBit_setBits, Nat.testBit_mod_two_pow]
  by_cases h : i < hi + 1 - lo
  · rw [if_pos (by omega), Nat.add_sub_cancel_left]
  · simp [h]

theorem bits_setBits_other {hi lo h l : Nat} (d : h < lo ∨ hi < l) (v x : Nat) : bits (setBits v hi lo x) h l = bits v h l := by
  refine Nat.eq_of_testBit_eq fun i => ?_
  rw [testBit_bits, testBit_setBits, testBit_bits]
  by_cases hi : i < h + 1 - l
  · rw [if_neg (by omega)]
  · simp [hi]

/-- A field within a word is one of the number that the word is made from. -/
theorem bits_ofNat {hi : Nat} (h : hi < 32) (v lo : Nat) : bits (BitVec.ofNat 32 v).toNat hi lo = bits v hi lo := by
  refine Nat.eq_of_testBit_eq fun i => ?_
  rw [testBit_bits, testBit_bits, BitVec.toNat_ofNat, Nat.testBit_mod_two_pow]
  by_cases hi : i < hi + 1 - lo
  · have : lo + i < 32 := by omega
    simp [this]
  · simp [hi]

theorem bits_wset_same {hi : Nat} (h : hi < 32) (w : Word) (lo x : Nat) :
    bits (wset w hi lo x).toNat hi lo = x % 2 ^ (hi + 1 - lo) := by
  rw [wset, bits_ofNat h, bits_setBits_same]

theorem bits_wset_other {hi lo h l : Nat} (b : h < 32) (d : h < lo ∨ hi < l) (w : Word) (x : Nat) :
    bits (wset w hi lo x).toNat h l = bits w.toNat h l := by
  rw [wset, bits_ofNat b, bits_setBits_other d]

/-- Setting one bit leaves the fields without it. -/
theorem bits_orBits_other {b h l : Nat} (d : b < l ∨ h < b) (w : Word) : bits (orBits w (2 ^ b)).toNat h l = bits w.toNat h l := by
  refine Nat.eq_of_testBit_eq fun i => ?_
  rw [testBit_bits, testBit_bits, orBits, BitVec.toNat_or, Nat.testBit_or, BitVec.toNat_ofNat, Nat.testBit_mod_two_pow,
    Nat.testBit_two_pow]
  by_cases hi : i < h + 1 - l
  · have : b ≠ l + i := by omega
    simp [this]
  · simp [hi]

theorem tb_wset_bit {b : Nat} (h : b < 32) (w : Word) : tb (wset w b b 1).toNat b = true := by
  rw [tb_eq_testBit, wset, BitVec.toNat_ofNat, Nat.testBit_mod_two_pow, testBit_setBits]
  simp [h]

/-! Events of an instance, and what an engine of its window changes. -/

@[simp] theorem icuLevels_core (s : State) (n : Nat) : s.icuLevels.core n = s.core n := congrArg Inst.core (icuLevels_inst s n)

/-- An event that stays within its instance ends its command. -/
theorem fin_afterEvent {s v : State} {n : Nat} (q : s.noCause) (c : s.clean) (w : Within n s v) (k : Nat) :
    fin ((v.modCore n fun c => c.passed k).settle n) = .next (v.afterEvent n k) :=
  fin_noCause ((w.trans ((passed_within v n k).trans (settle_within _ n))).noCause c q)

theorem onlyWindow_refl (n : Nat) (s : State) : OnlyWindow n s s :=
  ⟨⟨⟨s.safety.levels, s.host.pba, s.host.wake, s.tx, rfl⟩, fun _ _ => rfl⟩, rfl, rfl⟩

/-- A change of the core of instance n that keeps its threads. -/
theorem onlyWindow_modCore {n : Nat} {s t : State} (h : OnlyWindow n s t) {f : Core → Core}
    (hf : (f (t.core n)).threads = (t.core n).threads) : OnlyWindow n s (t.modCore n f) := by
  obtain ⟨⟨⟨lv, p, w, x, ht⟩, ho⟩, hi, hthreads⟩ := h
  refine ⟨⟨⟨lv, p, w, x, ?_⟩, fun m hm => (inst_modInst_other t _ hm).trans (ho m hm)⟩, ?_, ?_⟩
  · exact congrArg (fun t' : State => { t' with insts := (t.modCore n f).insts }) ht
  · rw [core_modCore_same, State.modCore, inst_modInst_same, hi]
  · rw [core_modCore_same, hf, hthreads]

/-! The end of a blit job (R225). -/

/-- BLT_STATUS once a job has ended with a result: DONE_SEQ counts, LAST_RESULT holds the result, and a failure sets ERR. -/
def blitStatusWord (w : Word) (res : Nat) : Word :=
  let w := wset (wset w 31 16 (wbits w 31 16 + 1)) 11 8 res
  if res = 0 then w else orBits w (2 ^ 1)

theorem blitStatusWord_doneSeq (w : Word) (res : Nat) :
    bits (blitStatusWord w res).toNat 31 16 = (bits w.toNat 31 16 + 1) % 65536 := by
  have h : bits (wset (wset w 31 16 (wbits w 31 16 + 1)) 11 8 res).toNat 31 16 = (bits w.toNat 31 16 + 1) % 65536 := by
    rw [bits_wset_other (by decide) (by decide), bits_wset_same (by decide)]
    rfl
  unfold blitStatusWord
  split
  · exact h
  · exact (bits_orBits_other (by decide) _).trans h

theorem blitStatusWord_lastResult (w : Word) (res : Nat) : bits (blitStatusWord w res).toNat 11 8 = res % 16 := by
  have h : ∀ w' : Word, bits (wset w' 11 8 res).toNat 11 8 = res % 16 := fun w' => bits_wset_same (by decide) w' 8 res
  unfold blitStatusWord
  split
  · exact h _
  · exact (bits_orBits_other (by decide) _).trans (h _)

theorem blitStatusWord_err (w : Word) {res : Nat} (h : res ≠ 0) : tb (blitStatusWord w res).toNat 1 = true := by
  unfold blitStatusWord
  rw [if_neg h]
  exact tb_orBits_same _ (by decide)

/-- Core d is c after the job at the head ended at stamp e with a result. -/
structure BlitEnded (e res : Nat) (c d : Core) : Prop where
  blits   : d.blits = c.blits.drop 1
  stamp   : d.blitEnd = e
  status  : d.reg O.BLT_STATUS = blitStatusWord (c.reg O.BLT_STATUS) res
  pulses  : d.pulses = if res = 0 then c.pulses ++ [⟨e, 21, none⟩] else c.pulses
  threads : d.threads = c.threads

/-- The end of a job, before the next job's check is queued. -/
theorem blitEnded_status (c : Core) (e res : Nat) :
    let d : Core := { c with blits := c.blits.drop 1, blitEnd := e }
    let d := (d.rSet O.BLT_STATUS 31 16 (d.rbits O.BLT_STATUS 31 16 + 1)).rSet O.BLT_STATUS 11 8 res
    BlitEnded e res c (if res = 0 then d.pulse e 21 else d.rOr O.BLT_STATUS 2) := by
  intro d0 d
  have hd : d.reg O.BLT_STATUS = wset (wset (c.reg O.BLT_STATUS) 31 16 (wbits (c.reg O.BLT_STATUS) 31 16 + 1)) 11 8 res := by
    refine (coreReg_setReg_same _ _ _).trans ?_
    rw [Core.rSet, Core.modReg, coreReg_setReg_same]
    rfl
  by_cases h : res = 0
  · rw [if_pos h]
    refine ⟨rfl, rfl, ?_, by rw [if_pos h]; rfl, rfl⟩
    rw [blitStatusWord, if_pos h]
    exact hd
  · rw [if_neg h]
    refine ⟨rfl, rfl, ?_, by rw [if_neg h]; rfl, rfl⟩
    rw [blitStatusWord, if_neg h, ← hd]
    exact coreReg_setReg_same _ _ _

theorem blitFinish_ended (c : Core) (e res : Nat) : BlitEnded e res c (c.blitFinish e res) := by
  have h := blitEnded_status c e res
  unfold Core.blitFinish
  dsimp only at h ⊢
  split
  · exact h
  · obtain ⟨hb, hs, hw, hp, ht⟩ := h
    exact ⟨hb, hs, hw, hp, ht⟩

/-! The check of the next blit job (R221, R225). -/

/-- What instance n's check of job j, at the head of its blit jobs, comes to. -/
def blitChecked (s : State) (n : Nat) (j : BlitJob) : Nat :=
  j.desc.check (s.quota n) (s.scratchOk n j.desc ((s.core n).seg (bits j.desc.scratch 2 0)))

theorem blitVerdict_ends {s : State} {n : Nat} {j : BlitJob} (h : blitChecked s n j ≠ 0 ∨ j.desc.n = 0) :
    s.blitVerdict n j.desc = some (blitChecked s n j) := by
  unfold State.blitVerdict
  exact if_pos (by simpa [blitChecked] using h)

theorem blitVerdict_runs {s : State} {n : Nat} {j : BlitJob} (h : blitChecked s n j = 0) (hn : j.desc.n ≠ 0) :
    s.blitVerdict n j.desc = none := by
  unfold State.blitVerdict
  exact if_neg (by simpa [blitChecked] using And.intro h hn)

/-- The job fails its checks, or has no pixel: it ends at S. -/
theorem blitStart_ends {s : State} {n : Nat} {j : BlitJob} {r : List BlitJob} (hj : (s.core n).blits = j :: r)
    (h : blitChecked s n j ≠ 0 ∨ j.desc.n = 0) :
    s.blitStart n = s.modCore n fun c => c.blitFinish (max (j.stamp + 2) (s.core n).blitEnd) (blitChecked s n j) := by
  unfold State.blitStart
  simp only [hj, blitVerdict_ends h]

/-- The job passes its checks, and its beats begin at S. -/
theorem blitStart_runs {s : State} {n : Nat} {j : BlitJob} {r : List BlitJob} (hj : (s.core n).blits = j :: r)
    (h : blitChecked s n j = 0) (hn : j.desc.n ≠ 0) :
    s.blitStart n = s.modCore n fun c => { c with
      blits := { j with start := max (j.stamp + 2) (s.core n).blitEnd, checked := true
                        scr := c.seg (bits j.desc.scratch 2 0), next := 0 } :: r } := by
  unfold State.blitStart
  simp only [hj, blitVerdict_runs h hn]

/-- The check of the next job is a change of its instance's core that keeps the threads. -/
theorem blitStart_changes {s : State} {n : Nat} {j : BlitJob} {r : List BlitJob} (hj : (s.core n).blits = j :: r) :
    Within n s (s.blitStart n) ∧ OnlyWindow n s (s.blitStart n) := by
  by_cases h : blitChecked s n j = 0 ∧ j.desc.n ≠ 0
  · obtain ⟨hres, hn⟩ := h
    rw [blitStart_runs hj hres hn]
    exact ⟨.modCore (.of rfl rfl), onlyWindow_modCore (onlyWindow_refl n s) rfl⟩
  · rw [blitStart_ends hj (by omega)]
    exact ⟨.modCore (blitFinish_calm _ _ _), onlyWindow_modCore (onlyWindow_refl n s) (blitFinish_ended _ _ _).threads⟩

theorem blitJobStart_eq {s : State} {n k : Nat} (ht : (s.inst n).turnOf .blitStart = some k) :
    exec (.blitJobStart n) s = fin (((s.blitStart n).modCore n fun c => c.passed k).settle n) := by
  show execBlitJobStart n s = _
  unfold execBlitJobStart State.event
  rw [ht]

/-! A blit beat reads (R219, R231). -/

/-- The space that the next beat of a job writes: that of its first pixel, and VRAM where it has none. -/
def beatSpace (j : BlitJob) : Nat := match j.pixels with | (_, t, _) :: _ => t | [] => 3

/-- Core d is c after a beat of job j, at the head, was read: the job goes on, and the beat waits to land. -/
structure BeatHeld (j : BlitJob) (b : Beat) (c d : Core) : Prop where
  blits : d.blits = { j with next := j.next + 1 } :: c.blits.drop 1
  beats : d.beats = c.beats ++ [b]
  calm  : Calm (fun _ => True) c d

/-- The watermark and the end of the job follow as effects. -/
theorem BeatHeld.addMicro {j : BlitJob} {b : Beat} {c d : Core} (h : BeatHeld j b c d) (k : Nat) {m : Micro}
    (hm : ∀ t d, m ≠ .endService t d) : BeatHeld j b c (d.addMicro k m) :=
  ⟨h.blits, h.beats, h.calm.trans (addMicro_calm d hm)⟩

theorem blitAfter_held (s : State) (n u : Nat) (j : BlitJob) (b : Beat) :
    ∃ f : Core → Core, s.blitAfter n u j (some b) none = s.modCore n f ∧ BeatHeld j b (s.core n) (f (s.core n)) := by
  unfold State.blitAfter
  refine ⟨_, rfl, ?_⟩
  dsimp only
  have h : BeatHeld j b (s.core n)
      { s.core n with blits := { j with next := j.next + 1 } :: (s.core n).blits.drop 1, beats := (s.core n).beats ++ [b] } :=
    ⟨rfl, rfl, .of rfl rfl⟩
  refine ite_pred (P := BeatHeld j b (s.core n)) (BeatHeld.addMicro ?_ _ (by intro _ _ h; cases h)) ?_ <;>
  · split
    · exact h.addMicro _ (by intro _ _ h; cases h)
    · exact h

theorem blitBeat_reads {s s1 : State} {n u : Nat} {j : BlitJob} {r : List BlitJob} {d : List Byte} {out : List (Nat × List Byte)}
    (hj : (s.core n).blits = j :: r) (hp : j.phase = .running) (hb : (s.core n).beats.countP (fun b => !b.dma) < 64)
    (hw : (j.pixels.findSome? fun p => (s.wrBlocked n (beatSpace j) p.2.2 j.desc.b).1) = none)
    (hr : s.readPixels n u j.desc.b j.desc.fill j.pixels [] = (.ok d s1, out)) :
    s.blitBeat n u = .done (s1.blitAfter n u j (some ⟨u + 1, false, j.seq, beatSpace j, out⟩) none) := by
  have hlen : decide (64 ≤ ((s.core n).beats.filter fun b => !b.dma).length) = false := by
    rw [← List.countP_eq_length_filter]; exact decide_eq_false (Nat.not_le.mpr hb)
  unfold State.blitBeat
  simp only [hj, hp, hlen, ne_eq, not_true_eq_false, decide_false, Bool.or_self, Bool.false_eq_true, if_false, hr]
  split
  case h_1 h => cases hw.symm.trans h
  case h_2 => rfl

theorem blitBeat_eq {s v : State} {n k : Nat} (ht : (s.inst n).turnOf .blitRead = some k) (h : s.blitBeat n (keyStamp k) = .done v) :
    exec (.blitBeat n) s = fin ((v.modCore n fun c => c.passed k).settle n) := by
  show execBlitBeat n s = _
  unfold execBlitBeat State.beatEvent
  simp only [ht, h]

/-- Settles O33: the check of the next job and the read of a beat each change the core of one instance, and what the command does after
that is the same for every event. -/
theorem blitJobs : Obligations.BlitJobs := by
  unfold Obligations.BlitJobs
  refine ⟨?start, ?beat⟩
  case start =>
    intro n k j r s ht q cl hj c e g res
    obtain ⟨hwithin, hwindow⟩ := blitStart_changes hj
    refine ⟨s.blitStart n, (blitJobStart_eq ht).trans (fin_afterEvent q cl hwithin k), hwindow, fun hres => ?fails, fun hres hn => ?empty,
      fun hres hn => ?runs⟩
    case fails =>
      rw [blitStart_ends hj (.inl hres), core_modCore_same]
      obtain ⟨hb, hs, hw, _, _⟩ := blitFinish_ended (s.core n) e res
      rw [hj] at hb
      exact ⟨hb, hs, hw ▸ blitStatusWord_err _ hres, hw ▸ blitStatusWord_lastResult _ _, hw ▸ blitStatusWord_doneSeq _ _⟩
    case empty =>
      rw [blitStart_ends hj (.inr hn), core_modCore_same]
      obtain ⟨hb, _, hw, hp, _⟩ := blitFinish_ended (s.core n) e res
      rw [hj] at hb
      rw [if_pos hres] at hp
      exact ⟨hb, hp, hw ▸ blitStatusWord_doneSeq _ _⟩
    case runs =>
      rw [blitStart_runs hj hres hn, core_modCore_same]
      exact ⟨rfl, rfl⟩
  case beat =>
    intro n k j r d out s s1 ht q cl hj hp hb sp hw hr hj1
    obtain ⟨f, hf, hblits, hbeats, hcalm⟩ := blitAfter_held s1 n (keyStamp k) j ⟨keyStamp k + 1, false, j.seq, beatSpace j, out⟩
    have hdone := blitBeat_reads hj hp hb hw hr
    rw [hf] at hdone
    refine ⟨s1.modCore n f, (blitBeat_eq ht hdone).trans (fin_afterEvent q cl (.modCore hcalm) k), ?_, ?_,
      fun m hm => inst_modInst_other s1 _ hm, rfl, rfl⟩
    · rw [core_modCore_same, hblits, hj1]; rfl
    · rw [core_modCore_same, hbeats]; rfl

/-! A host write of a register of an engine, of an instance that is Held (R13, R340). -/

theorem onlyWindow_answered (n : Nat) (s : State) (a : Tlp) : OnlyWindow n s (s.answered a) :=
  ⟨⟨⟨s.safety.levels, s.host.pba, s.host.wake, s.tx, rfl⟩, fun _ _ => rfl⟩, rfl, rfl⟩

/-- The end of a command changes no instance. -/
theorem onlyWindow_icuLevels {n : Nat} {s t : State} (h : OnlyWindow n s t) : OnlyWindow n s t.icuLevels := by
  obtain ⟨⟨⟨lv, p, w, x, ht⟩, ho⟩, hi, hthreads⟩ := h
  obtain ⟨p', w', x', hl⟩ := icuLevels_spec t
  refine ⟨⟨⟨t.chipLevels, p', w', x', ?_⟩, fun m hm => (icuLevels_inst t m).trans (ho m hm)⟩, ?_, ?_⟩
  · rw [icuLevels_insts, icuLevels_answer, hl, ht]
  · rw [icuLevels_core, icuLevels_inst]; exact hi
  · rw [icuLevels_core]; exact hthreads

/-- The engines' state replaced on both sides. -/
theorem onlyWindow_eng {n : Nat} {s t : State} (h : OnlyWindow n s t) (e : EngineSt) :
    OnlyWindow n { s with eng := e } { t with eng := e } := by
  obtain ⟨⟨⟨lv, p, w, x, ht⟩, ho⟩, hi, hthreads⟩ := h
  exact ⟨⟨⟨lv, p, w, x, congrArg (fun t' : State => { t' with eng := e }) ht⟩, ho⟩, hi, hthreads⟩

/-- The controller's view is all that following its signals changes. -/
theorem sense_eq (c : Core) : ∃ g l, c.sense = { c with signals := g, latched := l } := by
  unfold Core.sense
  dsimp only
  split
  · exact ⟨c.signals, c.latched, rfl⟩
  · exact ⟨_, _, rfl⟩

@[simp] theorem sense_threads (c : Core) : c.sense.threads = c.threads := by obtain ⟨_, _, h⟩ := sense_eq c; rw [h]
@[simp] theorem sense_blits (c : Core) : c.sense.blits = c.blits := by obtain ⟨_, _, h⟩ := sense_eq c; rw [h]
@[simp] theorem sense_dma (c : Core) : c.sense.dma = c.dma := by obtain ⟨_, _, h⟩ := sense_eq c; rw [h]
@[simp] theorem sense_mix (c : Core) : c.sense.mix = c.mix := by obtain ⟨_, _, h⟩ := sense_eq c; rw [h]
@[simp] theorem sense_reg (c : Core) (o : Nat) : c.sense.reg o = c.reg o := by obtain ⟨_, _, h⟩ := sense_eq c; rw [h]; rfl

theorem fld_write_any {f : Fld} (h : f.legal = .any) (new : Nat) (st : Nat × Nat) : (f.write new st).2 = st.2 := by
  unfold Fld.write
  rw [h]
  cases f.acc with
  | rw => exact if_pos rfl
  | _ => rfl

/-- A write clamps nothing where every value of each field is legal (R8). -/
theorem write_any_clamps {r : RegSpec} (h : ∀ f ∈ r.flds, f.legal = .any) (old new : Word) : (r.write old new).2 = 0 := by
  have hf : ∀ (l : List Fld), (∀ f ∈ l, f.legal = .any) → ∀ st : Nat × Nat,
      (l.foldl (fun st f => f.write new.toNat st) st).2 = st.2 := by
    intro l
    induction l with
    | nil => intros; rfl
    | cons f l ih =>
      intro hl st
      rw [List.foldl_cons, ih fun g hg => hl g (List.mem_cons_of_mem _ hg), fld_write_any (hl f List.mem_cons_self)]
  exact hf _ h _

/-- A register of an engine of the window: of the DMA unit, the blitter or the audio unit. Its writes clamp nothing. -/
structure EngineReg (off : Nat) (r : RegSpec) : Prop where
  found  : ∃ k, findReg windowRegs off = some (r, k)
  legal  : ∀ f ∈ r.flds, f.legal = .any
  engine : 0x1800 ≤ off ∧ off < 0x2000 ∨ 0x3800 ≤ off ∧ off < 0x5000

theorem EngineReg.core {off : Nat} {r : RegSpec} (h : EngineReg off r) : CoreReg off := by
  obtain ⟨⟨k, hf⟩, _, he⟩ := h
  exact ⟨by rw [hf]; rfl, by omega, by omega, by omega⟩

/-- What a write of the host to an engine's register does to the core of its instance: `w` is the register's word after it. -/
def enginePut (c : Core) (off stamp : Nat) (w v : Word) : Core :=
  if dmaReg off then c.dmaWrite off stamp w v else c.winPut .host off stamp w v

theorem hostWinWrite_held {s : State} {n off : Nat} (v : Word) (ha : (s.inst n).adm.state = 2) (hr : CoreReg off)
    (hp : (s.inst n).rung = .held) : s.hostWinWrite n off v = s.winApply n .host (s.inst n).hostPos off v := by
  unfold State.hostWinWrite
  simp [ha, hr.isNone, inRange_false hr.block, Nat.not_le.mpr hr.below, hp]

theorem winApply_engine {off : Nat} {r : RegSpec} (h : EngineReg off r) (s : State) (n stamp : Nat) (v : Word) :
    s.winApply n .host stamp off v =
      if dmaReg off && ((s.core n).dma.getD ((off - 0x1800) / 32) {}).active then s.modCore n fun c => c.dmaWrite off stamp 0 v
      else
        let t := (s.modCore n fun c => enginePut c off stamp (r.write ((s.core n).reg off) v).1 v).modCore n Core.sense
        if off = O.BLT_SUBMIT then t.noteJobs n else t := by
  obtain ⟨⟨k, hf⟩, hl, he⟩ := h
  have hne : off ≠ O.INST_THREAD_CTRL ∧ off ≠ O.INST_THREAD_STATUS ∧ off ≠ O.INST_PRESENCE ∧ off ≠ O.VID_TIMING := by
    refine ⟨?_, ?_, ?_, ?_⟩ <;> (rintro rfl; revert he; decide)
  obtain ⟨hctrl, hstatus, hpresence, htiming⟩ := hne
  have hbeam : beamReg off = false := inRange_false (by omega)
  have hclass : ∀ w, classClamp (s.inst n).adm.cls off w = (w, 0) := fun w => by
    have hbtim : (decide (0x1500 ≤ off) && decide (off < 0x1520)) = false := inRange_false (by omega)
    unfold classClamp
    simp only [htiming, hbtim, Bool.false_and, Bool.false_eq_true, if_false]
  have hthread : (decide (0x400 ≤ off) && decide (off < 0x800)) = false := inRange_false (by omega)
  have hsrc : (decide (0x1100 ≤ off) && decide (off < 0x1200)) = false := inRange_false (by omega)
  unfold State.winApply
  simp only [hctrl, hstatus, hpresence, hf, hbeam, hclass, hthread, hsrc, write_any_clamps hl, Core.countClamps, Bool.false_eq_true,
    if_false, if_true, Nat.add_zero]
  rfl

theorem winRow_engine {s : State} {p : Path} {n off : Nat} {r : RegSpec} (v : Word) (h : EngineReg off r) (reach : HostReaches s p n)
    (hp : (s.inst n).rung = .held) : s.winRow p n off v = (s.answered .done).winApply n .host (s.inst n).hostPos off v :=
  (winRow_host reach off v).trans (hostWinWrite_held v (admitted_of_reaches reach) h.core hp)

/-- The end of a command that changed the window of instance n alone. -/
theorem nextWith_window {n : Nat} {s t : State} (q : t.noCause) (h : OnlyWindow n s t) :
    NextWith (fin t) fun u => OnlyWindow n s u ∧ u.core n = t.core n ∧ u.eng = t.eng :=
  nextWith_fin q ⟨onlyWindow_icuLevels h, icuLevels_core t n, icuLevels_eng t⟩

/-- A host write acts on the core of instance n, and the controller follows its signals. -/
def hostPut (s : State) (n : Nat) (f : Core → Core) : State := ((s.answered .done).modCore n f).modCore n Core.sense

@[simp] theorem hostPut_core (s : State) (n : Nat) (f : Core → Core) : (hostPut s n f).core n = (f (s.core n)).sense := by
  rw [hostPut, core_modCore_same, core_modCore_same]
  rfl

theorem hostPut_noCause {s : State} (q : s.noCause) (n : Nat) (f : Core → Core) : (hostPut s n f).noCause :=
  modCore_noCause (modCore_noCause (noCause_answered q .done) n f) n Core.sense

theorem onlyWindow_hostPut {s : State} {n : Nat} {f : Core → Core} (hf : (f (s.core n)).threads = (s.core n).threads) :
    OnlyWindow n s (hostPut s n f) :=
  onlyWindow_modCore (onlyWindow_modCore (onlyWindow_answered n s .done) hf) (sense_threads _)

theorem nextWith_hostPut {s : State} (q : s.noCause) {n : Nat} {f : Core → Core} (hf : (f (s.core n)).threads = (s.core n).threads) :
    NextWith (fin (hostPut s n f)) fun u => OnlyWindow n s u ∧ u.core n = (f (s.core n)).sense :=
  nextWith_mono (nextWith_window (hostPut_noCause q n f) (onlyWindow_hostPut hf)) fun _ ⟨ho, hc, _⟩ =>
    ⟨ho, hc.trans (hostPut_core s n f)⟩

/-! A start of a DMA channel (R382). -/

/-- DMA_CTRL, as the register table of 12_dma.md gives it. -/
def dmaCtrlSpec : RegSpec := ⟨"DMA_CTRL", 0x1800, [.rw 14 12 0, .rw 10 8 0, .rw 5 4 0, .wo 0 0 0], 4, 32, 1, 4, false⟩

theorem findReg_dmaCtrl : ∀ j < 4, findReg windowRegs (O.DMA_CTRL + 32 * j) = some (dmaCtrlSpec, j) := by decide +kernel

theorem dmaCtrl_engineReg {j : Nat} (h : j < 4) : EngineReg (O.DMA_CTRL + 32 * j) dmaCtrlSpec :=
  ⟨⟨j, findReg_dmaCtrl j h⟩, by decide, .inl (by simp only [O.DMA_CTRL]; omega)⟩

/-- A field that a write of DMA_CTRL puts in holds the bits written. -/
theorem dmaCtrl_write_fields (old v : Word) : let w := (dmaCtrlSpec.write old v).1.toNat
    bits w 5 4 = v.toNat / 16 % 4 ∧ bits w 10 8 = v.toNat / 256 % 8 ∧ bits w 14 12 = v.toNat / 4096 % 8 := by
  have hw : (dmaCtrlSpec.write old v).1 = BitVec.ofNat 32 (setBits (setBits (setBits old.toNat 14 12 (bits v.toNat 14 12))
      10 8 (bits v.toNat 10 8)) 5 4 (bits v.toNat 5 4)) := rfl
  simp only [hw]
  refine ⟨?_, ?_, ?_⟩
  · rw [bits_ofNat (by decide), bits_setBits_same, bits_eq_div_mod]
    exact Nat.mod_mod _ _
  · rw [bits_ofNat (by decide), bits_setBits_other (by decide), bits_setBits_same, bits_eq_div_mod]
    exact Nat.mod_mod _ _
  · rw [bits_ofNat (by decide), bits_setBits_other (by decide), bits_setBits_other (by decide), bits_setBits_same, bits_eq_div_mod]
    exact Nat.mod_mod _ _

/-- An idle channel starts with the transfer that its registers hold. -/
theorem dmaStart_idle {c : Core} {k : Nat} (hk : k < c.dma.length) (ha : (c.dma.getD k {}).active = false) (t : Nat) :
    (c.dmaStart k t).threads = c.threads ∧ (c.dmaStart k t).dma.getD k {} =
      { active := true, start := t, prio := bits (c.reg (O.DMA_CTRL + 32 * k)).toNat 5 4
        count := (c.reg (O.DMA_COUNT + 32 * k)).toNat % 2 ^ 25, src := (c.reg (O.DMA_SRC + 32 * k)).toNat
        dst := (c.reg (O.DMA_DST + 32 * k)).toNat, srcSeg := bits (c.reg (O.DMA_CTRL + 32 * k)).toNat 10 8
        dstSeg := bits (c.reg (O.DMA_CTRL + 32 * k)).toNat 14 12 } := by
  unfold Core.dmaStart
  simp only [ha, Bool.false_eq_true, if_false]
  refine ⟨rfl, ?_⟩
  show (c.dma.set k _).getD k {} = _
  simp [List.getD_eq_getElem?_getD, hk]

/-- The offset of DMA_CTRL names its channel. -/
theorem dmaCtrl_channel (j : Nat) : (O.DMA_CTRL + 32 * j - 0x1800) / 32 = j ∧ (O.DMA_CTRL + 32 * j) % 32 = 0 := by
  simp only [O.DMA_CTRL]
  omega

theorem dmaReg_dmaCtrl {j : Nat} (h : j < 4) : dmaReg (O.DMA_CTRL + 32 * j) = true := by
  simp only [dmaReg, O.DMA_CTRL, Bool.and_eq_true, decide_eq_true_eq]
  omega

/-- A write of DMA_CTRL of an active channel is ignored, and sets IGNORED. -/
theorem dmaWrite_ignored {c : Core} {j : Nat} (ha : (c.dma.getD j {}).active = true) (stamp : Nat) (w v : Word) :
    let d := c.dmaWrite (O.DMA_CTRL + 32 * j) stamp w v
    d.threads = c.threads ∧ d.dma = c.dma ∧ tb (d.reg (O.DMA_STATUS + 32 * j)).toNat 3 = true
      ∧ d.reg (O.DMA_CTRL + 32 * j) = c.reg (O.DMA_CTRL + 32 * j) := by
  have hd : c.dmaWrite (O.DMA_CTRL + 32 * j) stamp w v
      = c.setReg (O.DMA_STATUS + 32 * j) (orBits (c.reg (O.DMA_STATUS + 32 * j)) (2 ^ 3)) := by
    unfold Core.dmaWrite
    simp only [(dmaCtrl_channel j).1, ha, if_true]
    rfl
  have hne : O.DMA_CTRL + 32 * j ≠ O.DMA_STATUS + 32 * j := by simp only [O.DMA_CTRL, O.DMA_STATUS]; omega
  simp only [hd, coreReg_setReg_same, coreReg_setReg_other _ _ hne]
  exact ⟨rfl, rfl, tb_orBits_same _ (by decide), trivial⟩

/-- START of an idle channel lands the register, and starts the channel. -/
theorem dmaWrite_starts {c : Core} {j : Nat} {v : Word} (ha : (c.dma.getD j {}).active = false) (hv : tb v.toNat 0 = true)
    (stamp : Nat) (w : Word) :
    c.dmaWrite (O.DMA_CTRL + 32 * j) stamp w v = (c.setReg (O.DMA_CTRL + 32 * j) w).dmaStart j stamp := by
  unfold Core.dmaWrite
  simp only [(dmaCtrl_channel j).1, (dmaCtrl_channel j).2, ha, hv, decide_true, Bool.and_self, Bool.false_eq_true, if_false, if_true]

/-- The transfer that START of an idle channel begins. -/
theorem dmaWrite_transfer {c : Core} {j : Nat} {v : Word} (hj : j < c.dma.length) (ha : (c.dma.getD j {}).active = false)
    (hv : tb v.toNat 0 = true) (stamp : Nat) (old : Word) :
    let d := c.dmaWrite (O.DMA_CTRL + 32 * j) stamp (dmaCtrlSpec.write old v).1 v
    d.threads = c.threads ∧ d.dma.getD j {} =
      { active := true, start := stamp, prio := v.toNat / 16 % 4, srcSeg := v.toNat / 256 % 8, dstSeg := v.toNat / 4096 % 8
        count := (c.reg (O.DMA_COUNT + 32 * j)).toNat % 2 ^ 25, src := (c.reg (O.DMA_SRC + 32 * j)).toNat
        dst := (c.reg (O.DMA_DST + 32 * j)).toNat } := by
  have hother : ∀ o ∈ [O.DMA_COUNT, O.DMA_SRC, O.DMA_DST], ∀ w,
      (c.setReg (O.DMA_CTRL + 32 * j) w).reg (o + 32 * j) = c.reg (o + 32 * j) := by
    intro o ho w
    have : ∀ o ∈ [O.DMA_COUNT, O.DMA_SRC, O.DMA_DST], o ≠ O.DMA_CTRL := by decide
    exact coreReg_setReg_other _ _ fun h => this o ho (Nat.add_right_cancel h)
  obtain ⟨hprio, hsrc, hdst⟩ := dmaCtrl_write_fields old v
  obtain ⟨hthreads, hdma⟩ := dmaStart_idle (c := c.setReg (O.DMA_CTRL + 32 * j) (dmaCtrlSpec.write old v).1) (k := j) hj ha stamp
  rw [dmaWrite_starts ha hv]
  refine ⟨hthreads, hdma.trans ?_⟩
  rw [coreReg_setReg_same, hprio, hsrc, hdst, hother _ (by decide), hother _ (by decide), hother _ (by decide)]

theorem dmaStart_eq {s : State} {p : Path} {n j : Nat} (v : Word) (hj : j < 4) (reach : HostReaches s p n)
    (hp : (s.inst n).rung = .held) : exec (.dmaStart p n j v) s =
      fin (if ((s.core n).dma.getD j {}).active then
          (s.answered .done).modCore n fun c => c.dmaWrite (O.DMA_CTRL + 32 * j) (s.inst n).hostPos 0 v
        else hostPut s n fun c => c.dmaWrite (O.DMA_CTRL + 32 * j) (s.inst n).hostPos
          (dmaCtrlSpec.write ((s.core n).reg (O.DMA_CTRL + 32 * j)) v).1 v) := by
  have hsub : O.DMA_CTRL + 32 * j ≠ O.BLT_SUBMIT := by simp only [O.DMA_CTRL, O.BLT_SUBMIT]; omega
  refine (if_pos hj).trans (congrArg fin ((winRow_engine v (dmaCtrl_engineReg hj) reach hp).trans ?_))
  rw [winApply_engine (dmaCtrl_engineReg hj)]
  simp only [(dmaCtrl_channel j).1, enginePut, dmaReg_dmaCtrl hj, Bool.true_and, if_true, hsub, if_false]
  rfl

/-- START of an idle channel of a Held instance. -/
theorem dmaStart_starts {s : State} (q : s.noCause) {p : Path} {n j : Nat} {v : Word} (hj : j < 4) (reach : HostReaches s p n)
    (hp : (s.inst n).rung = .held) (hl : j < (s.core n).dma.length) (ha : ((s.core n).dma.getD j {}).active = false)
    (hv : tb v.toNat 0 = true) :
    NextWith (exec (.dmaStart p n j v) s) fun u => OnlyWindow n s u ∧ (u.core n).dma.getD j {} =
      { active := true, start := (s.inst n).hostPos, prio := v.toNat / 16 % 4, srcSeg := v.toNat / 256 % 8
        dstSeg := v.toNat / 4096 % 8, count := ((s.core n).reg (O.DMA_COUNT + 32 * j)).toNat % 2 ^ 25
        src := ((s.core n).reg (O.DMA_SRC + 32 * j)).toNat, dst := ((s.core n).reg (O.DMA_DST + 32 * j)).toNat } := by
  obtain ⟨hthreads, hdma⟩ := dmaWrite_transfer hl ha hv (s.inst n).hostPos ((s.core n).reg (O.DMA_CTRL + 32 * j))
  rw [dmaStart_eq v hj reach hp, ha, if_neg Bool.false_ne_true]
  refine nextWith_mono (nextWith_hostPut q hthreads) fun u ⟨ho, hu⟩ => ⟨ho, ?_⟩
  rw [hu, sense_dma]
  exact hdma

/-- A START of an active channel of a Held instance is ignored. -/
theorem dmaStart_ignored {s : State} (q : s.noCause) {p : Path} {n j : Nat} (v : Word) (hj : j < 4) (reach : HostReaches s p n)
    (hp : (s.inst n).rung = .held) (ha : ((s.core n).dma.getD j {}).active = true) :
    NextWith (exec (.dmaStart p n j v) s) fun u => OnlyWindow n s u ∧ (u.core n).dma = (s.core n).dma
      ∧ tb ((u.core n).reg (O.DMA_STATUS + 32 * j)).toNat 3 = true
      ∧ (u.core n).reg (O.DMA_CTRL + 32 * j) = (s.core n).reg (O.DMA_CTRL + 32 * j) := by
  obtain ⟨hthreads, hrest⟩ := dmaWrite_ignored ha (s.inst n).hostPos 0 v
  rw [dmaStart_eq v hj reach hp, ha, if_pos rfl]
  refine nextWith_mono (nextWith_window (modCore_noCause (noCause_answered q .done) n _)
    (onlyWindow_modCore (onlyWindow_answered n s .done) hthreads)) fun u ⟨ho, hu, _⟩ => ⟨ho, ?_⟩
  rw [hu, core_modCore_same]
  exact hrest

/-! RESTART of a voice (R281). -/

/-- AUD_V_CTRL, as the register table of 09_audio.md gives it. -/
def audVCtrlSpec : RegSpec :=
  ⟨"AUD_V_CTRL", 0x4100, [.rw 31 31 0, .wo 30 30 0, .rw 23 16 0x80, .rw 13 12 0, .rw 9 8 0, .rw 5 5 0, .rw 4 4 0, .rw 3 3 0],
    16, 64, 1, 4, false⟩

theorem findReg_audVCtrl : ∀ j < 16, findReg windowRegs (O.AUD_V_CTRL + 64 * j) = some (audVCtrlSpec, j) := by decide +kernel

theorem audVCtrl_engineReg {j : Nat} (h : j < 16) : EngineReg (O.AUD_V_CTRL + 64 * j) audVCtrlSpec :=
  ⟨⟨j, findReg_audVCtrl j h⟩, by decide, .inr (by simp only [O.AUD_V_CTRL]; omega)⟩

theorem rSet_leaves (c : Core) (o hi lo v : Nat) : (c.rSet o hi lo v).threads = c.threads ∧ (c.rSet o hi lo v).mix = c.mix
    ∧ (c.rSet o hi lo v).reg o = wset (c.reg o) hi lo v := ⟨rfl, rfl, coreReg_setReg_same _ _ _⟩

/-- KEY_ON of a voice keys it on at the next sample, KEY shows it, and no thread changes. -/
theorem keyOn_keys (c : Core) {j : Nat} (hj : j < c.mix.voices.length) :
    (c.keyOn j).threads = c.threads ∧ ((c.keyOn j).mix.voices.getD j {}).restart = true
      ∧ tb ((c.keyOn j).reg (O.AUD_V_CTRL + 64 * j)).toNat 31 = true := by
  obtain ⟨hthreads, hmix, hreg⟩ := rSet_leaves c (O.AUD_V_CTRL + 64 * j) 31 31 1
  obtain ⟨d, hd⟩ : ∃ d, d = c.rSet (O.AUD_V_CTRL + 64 * j) 31 31 1 := ⟨_, rfl⟩
  have h : c.keyOn j = { d with mix := { d.mix with voices := d.mix.voices.modify j fun x => { x with restart := true } } } := hd ▸ rfl
  rw [← hd] at hthreads hmix hreg
  rw [h]
  refine ⟨hthreads, ?_, ?_⟩
  · rw [hmix]; simp [List.getD_eq_getElem?_getD, hj]
  · show tb (d.reg (O.AUD_V_CTRL + 64 * j)).toNat 31 = true
    rw [hreg]
    exact tb_wset_bit (by decide) _

/-- RESTART keys a voice on after the register has landed. -/
theorem voiceCtrl_restart (c : Core) (j : Nat) (w : Word) :
    ∃ d : Core, c.voiceCtrl j w true = d.keyOn j ∧ d.threads = c.threads ∧ d.mix.voices.length = c.mix.voices.length := by
  unfold Core.voiceCtrl
  refine ⟨_, if_pos rfl, ?_, ?_⟩
  · exact ite_pred (P := fun d : Core => d.threads = c.threads) rfl rfl
  · exact ite_pred (P := fun d : Core => d.mix.voices.length = c.mix.voices.length) (List.length_modify ..) rfl

theorem dmaReg_audVCtrl (j : Nat) : dmaReg (O.AUD_V_CTRL + 64 * j) = false := by
  simp [dmaReg, O.AUD_V_CTRL]
  omega

/-- The write of AUD_V_CTRL acts on its voice. -/
theorem enginePut_audVCtrl (c : Core) {j : Nat} (hj : j < 16) (stamp : Nat) (w v : Word) :
    enginePut c (O.AUD_V_CTRL + 64 * j) stamp w v = c.voiceCtrl j w (tb v.toNat 30) := by
  have hne : ∀ o ∈ [O.ICU_EOI, O.ICU_SWINT_CLR, O.ICU_PENDING_LO, O.ICU_PENDING_HI, O.CMP_COMMIT, O.BLT_SUBMIT],
      O.AUD_V_CTRL + 64 * j ≠ o := by
    have : ∀ o ∈ [O.ICU_EOI, O.ICU_SWINT_CLR, O.ICU_PENDING_LO, O.ICU_PENDING_HI, O.CMP_COMMIT, O.BLT_SUBMIT], o < O.AUD_V_CTRL := by
      decide
    intro o ho
    have := this o ho
    omega
  simp only [List.forall_mem_cons, List.not_mem_nil, false_imp_iff, implies_true, and_true] at hne
  obtain ⟨heoi, hswint, hlo, hhi, hcommit, hsubmit⟩ := hne
  have hin : (decide (0x4100 ≤ O.AUD_V_CTRL + 64 * j) && decide (O.AUD_V_CTRL + 64 * j < 0x4500)) = true := by
    simp only [O.AUD_V_CTRL, Bool.and_eq_true, decide_eq_true_eq]; omega
  have hout : ∀ a b, b ≤ 0x4100 → (decide (a ≤ O.AUD_V_CTRL + 64 * j) && decide (O.AUD_V_CTRL + 64 * j < b)) = false :=
    fun a b h => inRange_false (by simp only [O.AUD_V_CTRL]; omega)
  have hmod : (O.AUD_V_CTRL + 64 * j) % 64 = 0 ∧ (O.AUD_V_CTRL + 64 * j - 0x4100) / 64 = j := by
    simp only [O.AUD_V_CTRL]; omega
  unfold enginePut Core.winPut
  simp only [dmaReg_audVCtrl, heoi, hswint, hlo, hhi, hcommit, hsubmit, hin, hout 0x1100 0x1200 (by decide), hout 0x1400 0x1480 (by decide),
    hout 0x1500 0x1520 (by decide), hmod.1, hmod.2, decide_true, Bool.and_self, Bool.false_and, Bool.false_eq_true, if_false, if_true]

theorem audRestart_eq {s : State} {p : Path} {n j : Nat} {v : Word} (hj : j < 16) (reach : HostReaches s p n)
    (hp : (s.inst n).rung = .held) (hv : tb v.toNat 30 = true) :
    ∃ w, exec (.audRestart p n j v) s = fin (hostPut s n fun c => c.voiceCtrl j w true) := by
  have hsub : O.AUD_V_CTRL + 64 * j ≠ O.BLT_SUBMIT := by simp only [O.AUD_V_CTRL, O.BLT_SUBMIT]; omega
  refine ⟨(audVCtrlSpec.write ((s.core n).reg (O.AUD_V_CTRL + 64 * j)) v).1, ?_⟩
  refine (if_pos hj).trans (congrArg fin ((winRow_engine v (audVCtrl_engineReg hj) reach hp).trans ?_))
  rw [winApply_engine (audVCtrl_engineReg hj)]
  simp only [dmaReg_audVCtrl, enginePut_audVCtrl _ hj, hv, hsub, Bool.false_and, Bool.false_eq_true, if_false]
  rfl

/-- RESTART of a Held instance's voice keys it on. -/
theorem audRestart_keys {s : State} (q : s.noCause) {p : Path} {n j : Nat} {v : Word} (hj : j < 16) (reach : HostReaches s p n)
    (hp : (s.inst n).rung = .held) (hl : j < (s.core n).mix.voices.length) (hv : tb v.toNat 30 = true) :
    NextWith (exec (.audRestart p n j v) s) fun u => OnlyWindow n s u
      ∧ ((u.core n).mix.voices.getD j {}).restart = true ∧ tb ((u.core n).reg (O.AUD_V_CTRL + 64 * j)).toNat 31 = true := by
  obtain ⟨w, he⟩ := audRestart_eq hj reach hp hv
  obtain ⟨d, hd, hthreads, hlen⟩ := voiceCtrl_restart (s.core n) j w
  obtain ⟨hkeep, hrestart, hkey⟩ := keyOn_keys d (hlen ▸ hl)
  have hf : ((s.core n).voiceCtrl j w true).threads = (s.core n).threads := by rw [hd, hkeep, hthreads]
  rw [he]
  refine nextWith_mono (nextWith_hostPut q hf) fun u ⟨ho, hu⟩ => ⟨ho, ?_⟩
  rw [hu, sense_mix, sense_reg, hd]
  exact ⟨hrestart, hkey⟩

/-! A write of BLT_SUBMIT (R215). -/

/-- A submitted job joins the instance's blit jobs, and waits. -/
theorem bltSubmit_joins (c : Core) (stamp : Nat) : (c.bltSubmit stamp).threads = c.threads ∧
    ∃ j : BlitJob, (c.bltSubmit stamp).blits = c.blits ++ [j] ∧ j.stamp = stamp ∧ j.phase = .waiting
      ∧ j.seq = (wbits (c.reg O.BLT_SUBMIT_SEQ) 15 0 + 1) % 65536
      ∧ (c.bltSubmit stamp).reg O.BLT_SUBMIT_SEQ = BitVec.ofNat 32 j.seq := by
  unfold Core.bltSubmit
  dsimp only
  split
  · exact ⟨rfl, _, rfl, rfl, rfl, rfl, coreReg_setReg_same _ _ _⟩
  · exact ⟨rfl, _, rfl, rfl, rfl, rfl, coreReg_setReg_same _ _ _⟩

/-- BLT_SUBMIT, as the register table of 07_blitter.md gives it. -/
def bltSubmitSpec : RegSpec := ⟨"BLT_SUBMIT", 0x3824, [.wo 0 0 0], 1, 4, 1, 4, false⟩

theorem bltSubmit_engineReg : EngineReg O.BLT_SUBMIT bltSubmitSpec :=
  ⟨⟨0, by decide +kernel⟩, by decide, .inr (by decide)⟩

/-- The jobs of instance n that have come to wait for a place in the shared queue. -/
def newlyWaiting (s : State) (n : Nat) : List (Nat × Nat) :=
  ((s.core n).blits.filter fun j => j.phase == .waiting && !s.eng.blitWait.contains (n, j.seq)).map fun j => (n, j.seq)

theorem noteJobs_eq (s : State) (n : Nat) :
    s.noteJobs n = { s with eng := { s.eng with blitWait := s.eng.blitWait ++ newlyWaiting s n } } := by
  show (if (newlyWaiting s n).isEmpty then s else _) = _
  split
  case isTrue h => rw [List.isEmpty_iff.mp h, List.append_nil]
  case isFalse => rfl

/-- Only the window of an instance changed: the shared engines are as they were. -/
theorem eng_of_onlyWindow {n : Nat} {s t : State} (h : OnlyWindow n s t) : t.eng = s.eng := by
  obtain ⟨⟨⟨_, _, _, _, ht⟩, _⟩, _⟩ := h
  rw [ht]

/-- The end of a command that changed the window of instance n, and noted its new jobs. -/
theorem nextWith_noteJobs {n : Nat} {s t : State} (q : t.noCause) (h : OnlyWindow n s t) :
    NextWith (fin (t.noteJobs n)) fun u => OnlyWindow n { s with eng := { s.eng with blitWait := u.eng.blitWait } } u
      ∧ u.eng.blitWait = s.eng.blitWait ++ ((u.core n).blits.filter fun j =>
          j.phase == .waiting && !s.eng.blitWait.contains (n, j.seq)).map (fun j => (n, j.seq))
      ∧ u.core n = t.core n := by
  have heng := eng_of_onlyWindow h
  rw [noteJobs_eq]
  refine nextWith_mono (nextWith_window (noCause_congr q rfl rfl) (onlyWindow_eng h _)) fun u ⟨ho, hc, he⟩ => ⟨?_, ?_, hc⟩
  · rw [he, ← heng]; exact ho
  · rw [he, hc, ← heng]; rfl

/-- What BLT_SUBMIT does to a core at the host's position: a job joins on GO. -/
def submitOnGo (c : Core) (stamp : Nat) (v : Word) : Core := if tb v.toNat 0 then c.bltSubmit stamp else c

theorem submitOnGo_threads (c : Core) (stamp : Nat) (v : Word) : (submitOnGo c stamp v).threads = c.threads :=
  ite_pred (P := fun d : Core => d.threads = c.threads) (bltSubmit_joins c stamp).1 rfl

theorem enginePut_bltSubmit (c : Core) (stamp : Nat) (w v : Word) : enginePut c O.BLT_SUBMIT stamp w v = submitOnGo c stamp v := rfl

theorem bltSubmit_eq {s : State} {p : Path} {n : Nat} (v : Word) (reach : HostReaches s p n) (hp : (s.inst n).rung = .held) :
    exec (.bltSubmit p n v) s = fin ((hostPut s n fun c => submitOnGo c (s.inst n).hostPos v).noteJobs n) := by
  have hdma : dmaReg O.BLT_SUBMIT = false := rfl
  show fin (s.winRow p n O.BLT_SUBMIT v) = _
  rw [winRow_engine v bltSubmit_engineReg reach hp, winApply_engine bltSubmit_engineReg]
  simp only [hdma, enginePut_bltSubmit, Bool.false_and, Bool.false_eq_true, if_false, if_true]
  rfl

/-- Settles O27: each write goes through the window to one register of an engine, which acts on the core of the instance. -/
theorem hostWritesEngines : Obligations.HostWritesEngines := by
  unfold Obligations.HostWritesEngines
  intro p n v s reach hp q c w
  refine ⟨?submit, fun j hj hl hv => ?dma, fun j hj hl hv => audRestart_keys q hj reach hp hl hv⟩
  case submit =>
    have hw := onlyWindow_hostPut (s := s) (n := n) (submitOnGo_threads (s.core n) (s.inst n).hostPos v)
    rw [bltSubmit_eq v reach hp]
    refine nextWith_mono (nextWith_noteJobs (hostPut_noCause q n _) hw) fun u ⟨ho, hwait, hc⟩ => ⟨ho, hwait, ?_⟩
    rw [hc, hostPut_core, sense_blits, sense_reg]
    unfold submitOnGo
    split
    case isTrue => exact (bltSubmit_joins _ _).2
    case isFalse => rfl
  case dma =>
    cases ha : (c.dma.getD j {}).active with
    | true =>
      refine nextWith_mono (dmaStart_ignored q v hj reach hp ha) fun u ⟨ho, h⟩ => ⟨ho, ?_⟩
      rw [if_pos rfl]; exact h
    | false =>
      refine nextWith_mono (dmaStart_starts q hj reach hp hl ha hv) fun u ⟨ho, h⟩ => ⟨ho, ?_⟩
      rw [if_neg Bool.false_ne_true]; exact h

end Sys2Proof.Proofs

namespace Sys2Proof.Proofs
open Sys2Proof.Machine Sys2Proof.Laws

/-! PROOFS of the family of 09_audio.md: what a sample of the mixer leaves (R277, R284, R289 to R292, R296).

A sample keeps the mixer's state, shows the voices and the events in registers, hands its audio on, and writes the echo line. First,
what the check codes and the undo copies of such a read and write leave. -/

/-- With no word corrupted, what a unit reads is as it stands (R406). -/
theorem eccSensed_sound {α : Type} [DecidableEq α] {s : State} {m : MemId} (h : s.badOf m = ([], [])) (n lo len cause : Nat)
    (f : State → (Nat → Bool) → α) : s.eccSensed n m lo len cause f = s := by
  unfold State.eccSensed
  rw [h]
  rfl

/-- Of instance n, t differs from s in the causes found and in what undo copies touch: the ring, its marks, and the stream and
Bellows registers. -/
def OnlyUndo (n : Nat) (s t : State) : Prop :=
  t.inst n = { s.inst n with found := (t.inst n).found, ring := (t.inst n).ring, noUndo := (t.inst n).noUndo
                             cut := (t.inst n).cut, regs := (t.inst n).regs }

theorem OnlyUndo.of_insts {s t : State} (h : t.insts = s.insts) (n : Nat) : OnlyUndo n s t := by
  unfold OnlyUndo
  rw [inst_congr h]

theorem OnlyUndo.refl (n : Nat) (s : State) : OnlyUndo n s s := .of_insts rfl n

theorem OnlyUndo.trans {n : Nat} {a b c : State} (h : OnlyUndo n a b) (k : OnlyUndo n b c) : OnlyUndo n a c := by
  unfold OnlyUndo at h k ⊢
  rw [k, h]

/-- What undo copies leave of an instance: its core and the audio that it has handed on. -/
theorem OnlyUndo.leaves {n : Nat} {s t : State} (h : OnlyUndo n s t) : t.core n = s.core n
    ∧ (t.inst n).builds = (s.inst n).builds ∧ (t.inst n).preAudio = (s.inst n).preAudio := by
  have field {α : Type} (f : Inst → α) := congrArg f h
  exact ⟨field Inst.core, field Inst.builds, field Inst.preAudio⟩

theorem Checked.insts {s t : State} (h : Checked s t) : t.insts = s.insts := by
  obtain ⟨_, _, _, _, _, rfl, _, _⟩ := h
  rfl

theorem foundFault_onlyUndo (s : State) (n c a : Nat) : OnlyUndo n s (s.foundFault n c a) := by
  unfold OnlyUndo State.foundFault
  rw [inst_modInst_same]

theorem readChecked_onlyUndo (s : State) (n : Nat) (m : MemId) (a len : Nat) : OnlyUndo n s (s.readChecked n m a len) := by
  have h := OnlyUndo.of_insts (eccRange_checked s m 0 a len).insts n
  unfold State.readChecked
  split <;> rename_i e <;> rw [e] at h
  · exact h.trans (foundFault_onlyUndo _ n _ _)
  · exact h

/-- An undo copy changes nothing, or it reads its block and puts the copy into the ring (R436). -/
theorem undoCopy_cases (s : State) (n r b : Nat) : s.undoCopy n r b = s ∨
    ∃ t, (∃ m a, t = s.readChecked n m a (regionBlock r)) ∧
      ∃ ring noUndo cut regs, s.undoCopy n r b = t.setInst n { t.inst n with ring, noUndo, cut, regs } := by
  have read : ∃ m a, (match s.blockAt n r b with
      | .pool a => s.readChecked n .pool a (regionBlock r)
      | .hbm a => s.readChecked n .hbm a (regionBlock r)
      | .leaf e l o => s.readChecked n (.leaf e l) o (regionBlock r)) = s.readChecked n m a (regionBlock r) := by
    split <;> exact ⟨_, _, rfl⟩
  unfold State.undoCopy
  dsimp only
  split
  case h_1 => exact .inl rfl
  case h_2 =>
    split
    case isTrue => exact .inl rfl
    case isFalse =>
      split
      case h_1 => exact .inl rfl
      case h_2 => split <;> exact .inr ⟨_, read, _, _, _, _, rfl⟩

theorem undoCopy_onlyUndo (s : State) (n r b : Nat) : OnlyUndo n s (s.undoCopy n r b) := by
  obtain h | ⟨t, ⟨m, a, ht⟩, ring, noUndo, cut, regs, h⟩ := undoCopy_cases s n r b
  · rw [h]; exact .refl n s
  · have hread : OnlyUndo n s t := ht ▸ readChecked_onlyUndo s n m a _
    rw [h]
    refine hread.trans ?_
    unfold OnlyUndo
    rw [inst_setInst_same]

theorem undoRange_onlyUndo (s : State) (n r a len : Nat) : OnlyUndo n s (s.undoRange n r a len) := by
  unfold State.undoRange
  dsimp only
  split
  · exact .refl n s
  · exact loop_rel (OnlyUndo.refl n) OnlyUndo.trans _ _ (fun k s => undoCopy_onlyUndo s n r _) s

/-! The write of the echo line (R295). -/

theorem wrEcho_within (s : State) (n e : Nat) (d : List Byte) : Within n s (s.wrEcho n e d) :=
  ((undoRange_within s n 4 e d.length).trans (eccWrite_within _ n .hbm _ _)).trans (hbm_within _ n _)

theorem wrEcho_onlyUndo (s : State) (n e : Nat) (d : List Byte) : OnlyUndo n s (s.wrEcho n e d) :=
  ((undoRange_onlyUndo s n 4 e d.length).trans (.of_insts (eccWrite_checked _ .hbm _ _).insts n)).trans (.of_insts rfl n)

theorem wrEcho_pool (s : State) (n e : Nat) (d : List Byte) : (s.wrEcho n e d).pool = s.pool :=
  (eccWrite_mem _ .hbm _ _).1.trans (undoRange_mem s n 4 e d.length).1

/-- What the mixer writes to the echo line of instance n: a stereo sample at a place, or nothing. -/
def echoLanded (s : State) (n : Nat) : Option (Nat × Stereo) → State
  | some (p, x) => s.wrEcho n (4 * p) (audioBytes [x])
  | none => s

theorem echoLanded_leaves (s : State) (n : Nat) (o : Option (Nat × Stereo)) :
    Within n s (echoLanded s n o) ∧ OnlyUndo n s (echoLanded s n o) ∧ (echoLanded s n o).pool = s.pool := by
  cases o with
  | none => exact ⟨.refl n s, .refl n s, rfl⟩
  | some w => exact ⟨wrEcho_within s n _ _, wrEcho_onlyUndo s n _ _, wrEcho_pool s n _ _⟩

/-! The registers of the voices (R281, R282). -/

/-- One bit of a word, written with a truth value, reads back. -/
theorem getLsbD_wset_bit {b : Nat} (h : b < 32) (w : Word) (x : Bool) : (wset w b b (b2n x)).getLsbD b = x := by
  rw [← tb_toNat, tb_eq_testBit, wset, BitVec.toNat_ofNat, Nat.testBit_mod_two_pow, testBit_setBits]
  cases x <;> simp [h, b2n]

/-- Core d has the threads, the queued effects and the mixer of core c. -/
structure SameMixer (c d : Core) : Prop where
  threads : d.threads = c.threads
  micro   : d.micro = c.micro
  mix     : d.mix = c.mix

theorem SameMixer.refl (c : Core) : SameMixer c c := ⟨rfl, rfl, rfl⟩
theorem SameMixer.trans {a b c : Core} (h : SameMixer a b) (k : SameMixer b c) : SameMixer a c :=
  ⟨k.threads.trans h.threads, k.micro.trans h.micro, k.mix.trans h.mix⟩
theorem setReg_sameMixer (c : Core) (o : Nat) (w : Word) : SameMixer c (c.setReg o w) := ⟨rfl, rfl, rfl⟩
theorem pulse_sameMixer (c : Core) (t k : Nat) : SameMixer c (c.pulse t k) := ⟨rfl, rfl, rfl⟩
theorem pulse_reg (c : Core) (t k o : Nat) : (c.pulse t k).reg o = c.reg o := rfl

/-- Core c with voice v of the mix in its registers: its envelope and its key (R281, R282). -/
def voiceRegs (out : MixOut) (v : Nat) (c : Core) : Core :=
  (c.setReg (O.AUD_V_CTRL + 64 * v + 12) (BitVec.ofNat 32 (out.envs.getD v 0))).rSet (O.AUD_V_CTRL + 64 * v) 31 31
    (b2n (out.keys.getD v false))

/-- Voice v of the mix shows in its registers, and a voice that ended sends its pulse (R284). -/
def showVoice (out : MixOut) (t v : Nat) (c : Core) : Core :=
  if tb out.ended v then (voiceRegs out v c).pulse t (22 + v) else voiceRegs out v c

theorem voiceRegs_sameMixer (out : MixOut) (v : Nat) (c : Core) : SameMixer c (voiceRegs out v c) :=
  (setReg_sameMixer c _ _).trans (setReg_sameMixer _ _ _)

theorem showVoice_sameMixer (out : MixOut) (t v : Nat) (c : Core) : SameMixer c (showVoice out t v c) :=
  (voiceRegs_sameMixer out v c).trans (ite_pred (P := SameMixer (voiceRegs out v c)) (pulse_sameMixer _ _ _) (.refl _))

theorem showVoice_reg (out : MixOut) (t v : Nat) (c : Core) (o : Nat) : (showVoice out t v c).reg o = (voiceRegs out v c).reg o :=
  ite_pred (P := fun d : Core => d.reg o = (voiceRegs out v c).reg o) (pulse_reg _ _ _ _) rfl

theorem showVoice_env (out : MixOut) (t v : Nat) (c : Core) :
    (showVoice out t v c).reg (O.AUD_V_CTRL + 64 * v + 12) = BitVec.ofNat 32 (out.envs.getD v 0) := by
  rw [showVoice_reg, voiceRegs, Core.rSet, Core.modReg, coreReg_setReg_other _ _ (by omega), coreReg_setReg_same]

theorem showVoice_key (out : MixOut) (t v : Nat) (c : Core) :
    ((showVoice out t v c).reg (O.AUD_V_CTRL + 64 * v)).getLsbD 31 = out.keys.getD v false := by
  rw [showVoice_reg, voiceRegs, Core.rSet, Core.modReg, coreReg_setReg_same]
  exact getLsbD_wset_bit (by decide) _ _

theorem showVoice_other (out : MixOut) (t v : Nat) (c : Core) {o : Nat} (hk : o ≠ O.AUD_V_CTRL + 64 * v)
    (he : o ≠ O.AUD_V_CTRL + 64 * v + 12) : (showVoice out t v c).reg o = c.reg o := by
  rw [showVoice_reg, voiceRegs, Core.rSet, Core.modReg, coreReg_setReg_other _ _ hk, coreReg_setReg_other _ _ he]

/-- Core d is c with the first k voices of the mix shown in their registers. -/
structure VoicesShown (out : MixOut) (k : Nat) (c d : Core) : Prop where
  mixer : SameMixer c d
  env   : ∀ x < k, d.reg (O.AUD_V_CTRL + 64 * x + 12) = BitVec.ofNat 32 (out.envs.getD x 0)
  key   : ∀ x < k, (d.reg (O.AUD_V_CTRL + 64 * x)).getLsbD 31 = out.keys.getD x false
  below : ∀ o < O.AUD_V_CTRL, d.reg o = c.reg o

theorem loop_succ {σ : Type} (k : Nat) (f : Nat → σ → σ) (s : σ) : loop (k + 1) f s = f k (loop k f s) := by
  unfold loop
  rw [List.range_succ, List.foldl_append]
  rfl

/-- The next voice shows beside those before it. -/
theorem VoicesShown.next {out : MixOut} {k : Nat} {c d : Core} (h : VoicesShown out k c d) (t : Nat) :
    VoicesShown out (k + 1) c (showVoice out t k d) := by
  refine ⟨h.mixer.trans (showVoice_sameMixer out t k d), fun x hx => ?env, fun x hx => ?key, fun o ho => ?below⟩
  case env =>
    obtain rfl | hlt := Nat.eq_or_lt_of_le (Nat.le_of_lt_succ hx)
    · exact showVoice_env out t x d
    · exact (showVoice_other out t k d (by omega) (by omega)).trans (h.env x hlt)
  case key =>
    obtain rfl | hlt := Nat.eq_or_lt_of_le (Nat.le_of_lt_succ hx)
    · exact showVoice_key out t x d
    · rw [showVoice_other out t k d (by omega) (by omega)]
      exact h.key x hlt
  case below => exact (showVoice_other out t k d (by omega) (by omega)).trans (h.below o ho)

theorem voicesShown_loop (out : MixOut) (t k : Nat) (c : Core) : VoicesShown out k c (loop k (showVoice out t) c) := by
  induction k with
  | zero => exact ⟨.refl c, fun _ hx => absurd hx (Nat.not_lt_zero _), fun _ hx => absurd hx (Nat.not_lt_zero _), fun _ _ => rfl⟩
  | succ k ih => rw [loop_succ]; exact ih.next t

/-! The core of the instance after the sample. -/

/-- Core c after a sample at stamp t that the mixer makes `out` of, before its events show: the mixer's state and the voices. -/
def shownCore (out : MixOut) (t : Nat) (c : Core) : Core := loop 16 (showVoice out t) { c with mix := out.st }

theorem shownCore_voices (out : MixOut) (t : Nat) (c : Core) : VoicesShown out 16 { c with mix := out.st } (shownCore out t c) :=
  voicesShown_loop out t 16 _

/-- Core c after the sample: the events show in AUD_STATUS (R298). -/
def sampledCore (out : MixOut) (t : Nat) (c : Core) : Core :=
  (shownCore out t c).rOr O.AUD_STATUS (out.ended * 65536 + out.status)

/-- The mixer is the one that the mix gives; the threads and the queued effects stay. -/
theorem sampledCore_sameMixer (out : MixOut) (t : Nat) (c : Core) : SameMixer { c with mix := out.st } (sampledCore out t c) :=
  (shownCore_voices out t c).mixer.trans (setReg_sameMixer _ _ _)

theorem sampledCore_mix (out : MixOut) (t : Nat) (c : Core) : (sampledCore out t c).mix = out.st := (sampledCore_sameMixer out t c).mix

theorem sampledCore_threads (out : MixOut) (t : Nat) (c : Core) : (sampledCore out t c).threads = c.threads :=
  (sampledCore_sameMixer out t c).threads

theorem sampledCore_calm {q : Nat → Prop} (out : MixOut) (t : Nat) (c : Core) : Calm q c (sampledCore out t c) :=
  .of (sampledCore_threads out t c) (sampledCore_sameMixer out t c).micro

theorem sampledCore_voice (out : MixOut) (t : Nat) (c : Core) {x : Nat} (hx : x < 16) :
    (sampledCore out t c).reg (O.AUD_V_CTRL + 64 * x + 12) = BitVec.ofNat 32 (out.envs.getD x 0)
      ∧ ((sampledCore out t c).reg (O.AUD_V_CTRL + 64 * x)).getLsbD 31 = out.keys.getD x false := by
  have h := shownCore_voices out t c
  have other : ∀ j, (sampledCore out t c).reg (O.AUD_V_CTRL + j) = (shownCore out t c).reg (O.AUD_V_CTRL + j) :=
    fun j => coreReg_setReg_other _ _ (by simp only [O.AUD_V_CTRL, O.AUD_STATUS]; omega)
  rw [Nat.add_assoc, other, other, ← Nat.add_assoc]
  exact ⟨h.env x hx, h.key x hx⟩

theorem sampledCore_status (out : MixOut) (t : Nat) (c : Core) :
    (sampledCore out t c).reg O.AUD_STATUS = c.reg O.AUD_STATUS ||| BitVec.ofNat 32 (out.ended * 65536 + out.status) := by
  refine (coreReg_setReg_same _ _ _).trans ?_
  rw [(shownCore_voices out t c).below O.AUD_STATUS (by decide)]
  rfl

/-! The audio of the sample (R296): none in a catch-up; else it joins the builds of its frame, or waits for them. -/

/-- Instance i takes the main sample x of stamp t. -/
def takeAudio (t : Nat) (x : Stereo) (i : Inst) : Inst :=
  if i.catchUp.isSome then i
  else if i.builds.any fun b => b.frame == t / i.frameVc then
    { i with builds := i.builds.map fun b => if b.frame = t / i.frameVc then { b with audio := b.audio ++ [x] } else b }
  else { i with preAudio := i.preAudio ++ [x] }

theorem takeAudio_keeps (t : Nat) (x : Stereo) (i : Inst) : (takeAudio t x i).core = i.core ∧ (takeAudio t x i).found = i.found
    ∧ (takeAudio t x i).rung = i.rung ∧ (takeAudio t x i).adm = i.adm := by
  unfold takeAudio
  split
  case isTrue => exact ⟨rfl, rfl, rfl, rfl⟩
  case isFalse => split <;> exact ⟨rfl, rfl, rfl, rfl⟩

theorem takeAudio_catchUp (t : Nat) (x : Stereo) {i : Inst} (h : i.catchUp.isSome = true) : takeAudio t x i = i := if_pos h

theorem takeAudio_waits {t : Nat} (x : Stereo) {i : Inst} (h : i.catchUp = none) (hb : ∀ b ∈ i.builds, b.frame ≠ t / i.frameVc) :
    takeAudio t x i = { i with preAudio := i.preAudio ++ [x] } := by
  have hany : (i.builds.any fun b => b.frame == t / i.frameVc) = false := by simpa using hb
  unfold takeAudio
  rw [h, hany]
  rfl

/-! The sample itself. -/

theorem mixOut_next (s : State) (n t : Nat) : (s.mixOut n t).st.next = (s.core n).mix.next + 1 := rfl

/-- The sample ends a block of the bypass bus that goes out (R296). -/
def blockEnds (out : MixOut) (i : Inst) : Bool := out.st.bypBlk.length = 32 && out.st.bypN && i.catchUp.isNone

/-- Instance i mixes a sample of stamp t, while the device stands at block number `seq`. -/
def sampledInst (out : MixOut) (t seq : Nat) (i : Inst) : Inst :=
  { i with core := sampledCore out t i.core
           vf := if blockEnds out i then { i.vf with bypQ := i.vf.bypQ ++ [⟨seq, out.st.next - 32, out.st.bypBlk⟩] } else i.vf }

/-- The device once instance n has mixed and handed on the sample of stamp t, before the echo line is written. -/
def sampled (s : State) (n t : Nat) : State :=
  let out := s.mixOut n t
  { s.setInst n (takeAudio t out.main (sampledInst out t s.eng.seq (s.inst n))) with
    eng := { s.eng with seq := s.eng.seq + b2n (blockEnds out (s.inst n)) } }

theorem sampleStep_eq {s : State} {n : Nat} (h : s.badOf .hbm = ([], [])) (t : Nat) :
    s.sampleStep n t = echoLanded (sampled s n t) n (s.mixOut n t).echoWr := by
  unfold State.sampleStep
  dsimp only
  rw [eccSensed_sound h, eccSensed_sound h]
  rfl

theorem sampled_inst (s : State) (n t : Nat) : (sampled s n t).inst n
    = takeAudio t (s.mixOut n t).main (sampledInst (s.mixOut n t) t s.eng.seq (s.inst n)) := inst_setInst_same s n _

theorem sampled_core (s : State) (n t : Nat) : (sampled s n t).core n = sampledCore (s.mixOut n t) t (s.core n) :=
  (congrArg Inst.core (sampled_inst s n t)).trans (takeAudio_keeps _ _ _).1

theorem sampled_within (s : State) (n t : Nat) : Within n s (sampled s n t) := by
  obtain ⟨hcore, hfound, hrung, hadm⟩ := takeAudio_keeps t (s.mixOut n t).main (sampledInst (s.mixOut n t) t s.eng.seq (s.inst n))
  refine (Within.setInst ?_ hfound hrung hadm).trans (.of_eq rfl rfl rfl rfl rfl (clean_congr rfl rfl))
  rw [hcore]
  exact sampledCore_calm _ _ _

theorem audioSample_eq {s : State} {n k : Nat} (ht : (s.inst n).turnOf .sample = some k) :
    exec (.audioSample n) s = fin (((s.sampleStep n (keyStamp k)).modCore n fun c => c.passed k).settle n) := by
  show execAudioSample n s = _
  unfold execAudioSample State.event
  rw [ht]

/-- Settles O32: the sample changes the core and the audio of instance n, and the write of the echo line after it leaves both as they
are. -/
theorem audioSampleAdvances : Obligations.AudioSampleAdvances := by
  unfold Obligations.AudioSampleAdvances
  intro n k s ht q cl hce out
  have hstep := sampleStep_eq (n := n) (Prod.ext hce (cl .hbm) : s.badOf .hbm = ([], [])) (keyStamp k)
  obtain ⟨hwithin, hundo, hpool⟩ := echoLanded_leaves (sampled s n (keyStamp k)) n out.echoWr
  rw [← hstep] at hwithin hundo hpool
  have w := (sampled_within s n (keyStamp k)).trans hwithin
  obtain ⟨hsame, hbuilds, haudio⟩ := hundo.leaves
  have hcore : (s.sampleStep n (keyStamp k)).core n = sampledCore out (keyStamp k) (s.core n) := hsame.trans (sampled_core s n _)
  refine ⟨s.sampleStep n (keyStamp k), (audioSample_eq ht).trans (fin_afterEvent q cl w k), ?mix, ?next, ?voices, ?status,
    fun hc => ?catchUp, fun hc hb => ?audio, ?threads, w.others, hpool⟩
  case mix => rw [hcore, sampledCore_mix]
  case next => rw [hcore, sampledCore_mix]; exact mixOut_next s n _
  case voices => rw [hcore]; exact fun x hx => sampledCore_voice out _ _ hx
  case status => rw [hcore, sampledCore_status]
  case catchUp =>
    have hi : (sampled s n (keyStamp k)).inst n = _ := (sampled_inst s n _).trans (takeAudio_catchUp _ _ hc)
    rw [haudio, hbuilds, hi]
    exact ⟨rfl, rfl⟩
  case audio =>
    have hi : (sampled s n (keyStamp k)).inst n = _ := (sampled_inst s n _).trans (takeAudio_waits _ hc hb)
    rw [haudio, hi]
    rfl
  case threads => rw [hcore, sampledCore_threads]

end Sys2Proof.Proofs
